-- ==== Sys2Proof/Word.lean ====
section
/-! DEFINITION. Word.lean: the word types of the block and their plainest arithmetic (00_scope.md R9, R11). -/
namespace Sys2Proof

/-- `u32` (R9): an unsigned 32-bit value. An `i32` is the same 32 bits, read through `BitVec.toInt`. -/
abbrev Word := BitVec 32

/-- One byte: a byte lane of the host port (R74), or one micro-instruction (R100). -/
abbrev Byte := BitVec 8

/-- `byte_k(v) = v[8k+7:8k]` (R11): byte 0 is the least significant byte. -/
def byteOf (v : Word) (k : Nat) : Byte := v.extractLsb' (8 * k) 8

/-- The word whose byte `k` is `b k`, little-endian (R11, R74). -/
def wordOfBytes (b0 b1 b2 b3 : Byte) : Word := b3 ++ b2 ++ b1 ++ b0

end Sys2Proof
end

