-- ==== Sys2Proof/Syntax.lean ====
section
/-! DEFINITION. Syntax.lean: the instructions of spec/opcode_table.json, one constructor a row. -/
namespace Sys2Proof

/-- The two instruction formats (30_encoding.md R100). -/
inductive Format where
  | hcmd  -- the 32-bit host command word, written to CMD
  | uop   -- the 8-bit micro-instruction, fetched by a sequencer from its ROM
deriving DecidableEq, Repr

/-- The six instructions. Host commands have no operand fields (R103); a micro-instruction has the SIDE level and
the DELAY count (R102). A level 1 is `true`. -/
inductive Instr where
  | nop                                          -- NOP      44_transmitter.md R237
  | prepare                                      -- PREPARE  44_transmitter.md R238
  | start                                        -- START    44_transmitter.md R240
  | setclk (side : Bool) (delay : BitVec 2)      -- SETCLK   43_sequencers.md R194
  | refill (side : Bool) (delay : BitVec 2)      -- REFILL   43_sequencers.md R195
  | shift1 (side : Bool) (delay : BitVec 2)      -- SHIFT1   43_sequencers.md R196
deriving DecidableEq, Repr

/-- The format of an instruction's word (R100). -/
def Instr.format : Instr → Format
  | .nop | .prepare | .start => .hcmd
  | .setclk _ _ | .refill _ _ | .shift1 _ _ => .uop

end Sys2Proof
end

