-- ==== Sys2Proof/WellFormed.lean ====
section
/-! DEFINITION. WellFormed.lean: which instruction may stand at which place. The operand ranges of R102 (SIDE one
bit, DELAY two bits) are in the types of `Instr`, so what is left to check is the place. -/
namespace Sys2Proof

/-- An instruction is well formed as a word of format `f` when it is an instruction of that format: CMD takes host
commands only, a ROM holds micro-instructions only (R100, R104). -/
def Instr.wf (f : Format) (i : Instr) : Bool := i.format == f

/-- A micro-program as R106 and R111 have it: the two lines of one ROM, in index order. -/
structure MicroProgram where
  line0 : Instr
  line1 : Instr
deriving DecidableEq, Repr

/-- Both lines are micro-instructions. -/
def MicroProgram.wf (p : MicroProgram) : Bool := p.line0.wf .uop && p.line1.wf .uop

/-- Program A draws on REFILL and SHIFT1 only ("REFILL occurs only in ROM_A", R195, R196). -/
def MicroProgram.fitsSeqA (p : MicroProgram) : Bool :=
  let ok : Instr → Bool := fun
    | .refill _ _ | .shift1 _ _ => true
    | .nop | .prepare | .start | .setclk _ _ => false
  ok p.line0 && ok p.line1

/-- Program B draws on SETCLK only ("SETCLK occurs only in ROM_B", R194). -/
def MicroProgram.fitsSeqB (p : MicroProgram) : Bool :=
  let ok : Instr → Bool := fun
    | .setclk _ _ => true
    | .nop | .prepare | .start | .refill _ _ | .shift1 _ _ => false
  ok p.line0 && ok p.line1

end Sys2Proof
end

