-- ==== Sys2Proof/Decode.lean ====
section
/-! DEFINITION. Decode.lean: from bits to instructions (30_encoding.md R100 to R108), total and rejecting by name, and
the encoder written from the same tables. -/
namespace Sys2Proof

/-- Why a word is no instruction. -/
inductive Reject where
  | reservedOpcode (opcode : BitVec 4)  -- HCMD opcode 0x3 to 0xF (R101, R107)
  | reservedOp                          -- UOP with OP = 11 (R108)
  | reservedRsv                         -- UOP with RSV ≠ 000 (R108)
  | badLength                           -- neither one byte (UOP) nor four bytes (HCMD) (R100)
deriving DecidableEq, Repr

/-- HCMD: OPCODE = CMD[3:0]; bits [31:4] are ignored (R101). -/
def hcmdOpcode (w : Word) : BitVec 4 := w.extractLsb' 0 4

/-- UOP fields (R102): SIDE = u[7], OP = u[6:5], DELAY = u[4:3], RSV = u[2:0]. -/
def uopSide (u : Byte) : Bool := u.getLsbD 7
def uopOp (u : Byte) : BitVec 2 := u.extractLsb' 5 2
def uopDelay (u : Byte) : BitVec 2 := u.extractLsb' 3 2
def uopRsv (u : Byte) : BitVec 3 := u.extractLsb' 0 3

/-- Decodes a host command word (R101). -/
def decodeHcmd (w : Word) : Except Reject Instr :=
  match (hcmdOpcode w).toNat with
  | 0 => .ok .nop
  | 1 => .ok .prepare
  | 2 => .ok .start
  | _ => .error (.reservedOpcode (hcmdOpcode w))

/-- Decodes a micro-instruction (R102, R104): it selects an instruction exactly when RSV = 000 and OP ≠ 11. -/
def decodeUop (u : Byte) : Except Reject Instr :=
  if uopRsv u ≠ 0 then .error .reservedRsv
  else match (uopOp u).toNat with
    | 0 => .ok (.setclk (uopSide u) (uopDelay u))
    | 1 => .ok (.refill (uopSide u) (uopDelay u))
    | 2 => .ok (.shift1 (uopSide u) (uopDelay u))
    | _ => .error .reservedOp

/-- Decodes the bytes of an instruction as they are stored, lowest address first: one byte is a micro-instruction,
four bytes are a host command in the port's little-endian lanes (R100, R74, log entry 18). -/
def decodeBytes : List Byte → Except Reject Instr
  | [u] => decodeUop u
  | [b0, b1, b2, b3] => decodeHcmd (wordOfBytes b0 b1 b2 b3)
  | _ => .error .badLength

/-- The opcode of a host command (R101). -/
def hcmdWord (opcode : BitVec 4) : Word := opcode.setWidth 32

/-- A micro-instruction word from its fields (R102), RSV = 000. -/
def uopWord (side : Bool) (op : BitVec 2) (delay : BitVec 2) : Byte :=
  BitVec.ofBool side ++ op ++ delay ++ (0 : BitVec 3)

/-- The bytes of a host command word, byte lane 0 first (R74). -/
def wordBytes (w : Word) : List Byte := [byteOf w 0, byteOf w 1, byteOf w 2, byteOf w 3]

/-- The encoder: the bytes of an instruction. The ignored bits [31:4] of a host command are written 0. -/
def encode : Instr → List Byte
  | .nop => wordBytes (hcmdWord 0x0)
  | .prepare => wordBytes (hcmdWord 0x1)
  | .start => wordBytes (hcmdWord 0x2)
  | .setclk side delay => [uopWord side 0b00 delay]
  | .refill side delay => [uopWord side 0b01 delay]
  | .shift1 side delay => [uopWord side 0b10 delay]

/-- A row of the opcode table: its match and mask (R104, spec/opcode_table.json). -/
structure OpcodeRow where
  format : Format
  pattern : Word
  mask : Word
deriving DecidableEq, Repr

/-- spec/opcode_table.json's six rows, in its order. -/
def opcodeRows : List OpcodeRow :=
  [ ⟨.hcmd, 0x0, 0xF⟩, ⟨.hcmd, 0x1, 0xF⟩, ⟨.hcmd, 0x2, 0xF⟩,
    ⟨.uop, 0x00, 0x67⟩, ⟨.uop, 0x20, 0x67⟩, ⟨.uop, 0x40, 0x67⟩ ]

/-- Two rows of one format that no word matches together. -/
def OpcodeRow.disjoint (r q : OpcodeRow) : Bool :=
  r.format != q.format || (r.pattern &&& (r.mask &&& q.mask)) != (q.pattern &&& (r.mask &&& q.mask))

/-- The instruction of a table word: up to 8 bits are a micro-instruction, more are a host command word. -/
def decodeTableWord (nbits w : Nat) : Option Instr :=
  let bytes := if nbits ≤ 8 then [BitVec.ofNat 8 w] else wordBytes (BitVec.ofNat 32 w)
  match decodeBytes bytes with
  | .ok i => some i
  | .error _ => none

end Sys2Proof
end

