-- ==== Sys2Proof/Config.lean ====
section
/-! DEFINITION. Config.lean: what an implementation fixes (00_scope.md R8) and the values the spec leaves free. -/
namespace Sys2Proof

/-- The sign of the cubic term of the synthesizer series, SINE_CUBIC_SIGN (R8, 41_synthesizer.md R153). -/
inductive CubicSign where
  | minus  -- SINE_CUBIC_SIGN = −1, the spec's default
  | plus   -- SINE_CUBIC_SIGN = +1, the source's literal text
deriving DecidableEq, Repr

/-- The named parameters of R8 that some rule reads. They are fixed for a machine: no step changes them, reset
does not touch them, and every statement holds for each legal value of them. PREPARE_LATENCY is a draw per
command (`Config.latencyDraw`); no rule reads BASE_CLOCK_HZ but the conversion `secondsOf`. -/
structure Params where
  txqDepth  : Nat        -- TXQ_DEPTH
  settleTicks : Nat      -- SETTLE_TICKS
  tableCap  : Nat        -- TABLE_CAP
  cubicSign : CubicSign  -- SINE_CUBIC_SIGN
deriving DecidableEq, Repr

/-- The ranges R8 gives: 1 ≤ TXQ_DEPTH ≤ 255, 1 ≤ TABLE_CAP ≤ 2^24 (SETTLE_TICKS is any integer ≥ 0). -/
abbrev Params.Legal (p : Params) : Prop :=
  1 ≤ p.txqDepth ∧ p.txqDepth ≤ 255 ∧ 1 ≤ p.tableCap ∧ p.tableCap ≤ 2 ^ 24

/-- A micro-program store (20_memory.md R70): two 8-bit words at the indices 0 and 1. -/
structure Rom where
  word0 : Byte
  word1 : Byte
deriving DecidableEq, Repr

namespace Config

/-- TXQ_DEPTH − 1 of this machine: open in R8 (D18), so without a body (log entry 1). -/
opaque txqDepthDraw : Fin 255

/-- SETTLE_TICKS of this machine: open in R8 (D20) (log entry 1). -/
opaque settleTicksDraw : Nat

/-- TABLE_CAP − 1 of this machine: open in R8 (D21) (log entry 1). -/
opaque tableCapDraw : Fin 16777216

/-- PREPARE_LATENCY − 1 of the n-th PREPARE command: "a draw per command, any finite integer ≥ 1" (R8, D22)
(log entry 2). -/
opaque latencyDraw : Nat → Nat

/-- Sign of the encoding of a NaN that an operation makes: R10 gives no NaN payload (log entry 5). -/
opaque nanSign : Bool

/-- Fraction − 1 of the encoding of a NaN that an operation makes (log entry 5). -/
opaque nanFraction : Fin 8388607

/-- The parameters the machine has at `State.reset`: the three open ones are free, and the cubic sign is the
spec's default −1 (R8, 90_conflicts.md C1, log entry 19). -/
def params : Params :=
  { txqDepth := txqDepthDraw.val + 1, settleTicks := settleTicksDraw,
    tableCap := tableCapDraw.val + 1, cubicSign := .minus }

end Config

/-- Seconds that `ticks` base ticks take when `clk` runs at `baseClockHz` hertz (70_reset_and_hazards.md R300):
the one use of BASE_CLOCK_HZ (R8, D27, log entry 17). -/
def secondsOf (baseClockHz : Rat) (ticks : Nat) : Rat := (ticks : Rat) / baseClockHz

end Sys2Proof
end

