-- ==== Sys2Proof/Machine/Binary32.lean ====
section
/-! DEFINITION. Machine/Binary32.lean: IEEE-754 binary32 values and the arithmetic of 00_scope.md R10, exact on naturals
(log entry 16). -/
namespace Sys2Proof.Machine

/-- A binary32 value. Every finite one is a whole multiple of 2^-149, so `fin neg mag` is (−1)^neg · mag · 2^-149. -/
inductive F32 where
  | nan
  | inf (neg : Bool)
  | fin (neg : Bool) (mag : Nat)
deriving DecidableEq, Repr

namespace F32

/-- 1.0 in units of 2^-149. Irreducible, so that no proof unfolds 2^149 by accident (`unit_eq`). -/
@[irreducible] def unit : Nat := 2 ^ 149

/-- 2^128 in units of 2^-149: a rounded magnitude that reaches it overflows to infinity. -/
def overflowMag : Nat := 2 ^ 128 * unit

/-- The magnitudes of the finite values: at most 24 significant bits, below 2^128. -/
def representable (mag : Nat) : Prop := mag % 2 ^ (mag.log2 - 23) = 0 ∧ mag < overflowMag

/-- Division to the nearest integer, ties to even. -/
def divHalfEven (num den : Nat) : Nat :=
  let q := num / den
  let r := num % den
  if 2 * r < den then q else if den < 2 * r then q + 1 else if q % 2 = 0 then q else q + 1

/-- num/den (units of 2^-149) rounded to 24 significant bits, ties to even. -/
def roundMag (num den : Nat) : Nat :=
  let s := (num / den).log2 - 23
  divHalfEven num (den * 2 ^ s) * 2 ^ s

/-- f32(r) for r = ±num/den units of 2^-149 (R10): round to nearest, ties to even, overflow to infinity. -/
def round (neg : Bool) (num den : Nat) : F32 :=
  let m := roundMag num den
  if overflowMag ≤ m then .inf neg else .fin neg m

/-- flt(u) (R10), fields as in 30_encoding.md R105. -/
def flt (u : Word) : F32 :=
  let e := (u.extractLsb' 23 8).toNat
  let f := (u.extractLsb' 0 23).toNat
  let neg := u.getLsbD 31
  if e = 255 then (if f = 0 then .inf neg else .nan)
  else if e = 0 then .fin neg f
  else .fin neg ((2 ^ 23 + f) * 2 ^ (e - 1))

/-- Exponent and fraction fields of a finite magnitude, as one number. -/
def magBits (mag : Nat) : Nat := (mag.log2 - 23) * 2 ^ 23 + mag / 2 ^ (mag.log2 - 23)

/-- The sign bit and the 31 bits below it. -/
def pack (neg : Bool) (low : Nat) : Word := BitVec.ofBool neg ++ BitVec.ofNat 31 low

/-- bits(x) (R10). A NaN that an operation makes has no payload in R10: it is free (log entry 5). -/
def bits : F32 → Word
  | .nan => pack Config.nanSign (0x7F800001 + Config.nanFraction.val)
  | .inf neg => pack neg 0x7F800000
  | .fin neg mag => pack neg (magBits mag)

/-- isnan(x). -/
def isNan : F32 → Bool
  | .nan => true
  | .inf _ | .fin _ _ => false

/-- isfinite(x). -/
def isFinite : F32 → Bool
  | .fin _ _ => true
  | .nan | .inf _ => false

/-- A signed magnitude as an integer. -/
def signed (neg : Bool) (mag : Nat) : Int := if neg then -(mag : Int) else (mag : Int)

/-- The real value in units of 2^-149, an infinity at ±2^128; a NaN has none. -/
def key : F32 → Option Int
  | .nan => none
  | .inf neg => some (signed neg overflowMag)
  | .fin neg mag => some (signed neg mag)

/-- a < b (R10): false when either side is NaN. -/
def lt (a b : F32) : Bool :=
  match a.key, b.key with
  | some x, some y => decide (x < y)
  | _, _ => false

/-- a ≥ b (R10): false when either side is NaN. -/
def ge (a b : F32) : Bool :=
  match a.key, b.key with
  | some x, some y => decide (y ≤ x)
  | _, _ => false

/-- −a. -/
def neg : F32 → F32
  | .nan => .nan
  | .inf n => .inf (!n)
  | .fin n m => .fin (!n) m

/-- a ⊕ b (R10). An exact zero sum is +0 unless both operands are negative zeros (round to nearest). -/
def add : F32 → F32 → F32
  | .nan, _ => .nan
  | _, .nan => .nan
  | .inf n, .inf m => if n = m then .inf n else .nan
  | .inf n, .fin _ _ => .inf n
  | .fin _ _, .inf m => .inf m
  | .fin n a, .fin m b =>
    let z := signed n a + signed m b
    if z = 0 then .fin (n && m) 0 else round (decide (z < 0)) z.natAbs 1

/-- a ⊖ b (R10). -/
def sub (a b : F32) : F32 := a.add b.neg

/-- a ⊗ b (R10). -/
def mul : F32 → F32 → F32
  | .nan, _ => .nan
  | _, .nan => .nan
  | .inf n, .inf m => .inf (n ^^ m)
  | .inf n, .fin m b => if b = 0 then .nan else .inf (n ^^ m)
  | .fin n a, .inf m => if a = 0 then .nan else .inf (n ^^ m)
  | .fin n a, .fin m b => round (n ^^ m) (a * b) unit

/-- a ⊘ b (R10). -/
def div : F32 → F32 → F32
  | .nan, _ => .nan
  | _, .nan => .nan
  | .inf _, .inf _ => .nan
  | .inf n, .fin m _ => .inf (n ^^ m)
  | .fin n _, .inf m => .fin (n ^^ m) 0
  | .fin n a, .fin m b =>
    if b = 0 then (if a = 0 then .nan else .inf (n ^^ m)) else round (n ^^ m) (a * unit) b

/-- f32 of an integer (R10). -/
def ofInt (i : Int) : F32 := round (decide (i < 0)) (i.natAbs * unit) 1

/-- f32 of a natural number. -/
def ofNat (n : Nat) : F32 := ofInt (n : Int)

/-- trunc(x) (R10): the integer part of a finite x toward zero. Its callers pass finite values only; the value for
the others is never read. -/
def trunc : F32 → Int
  | .nan | .inf _ => 0
  | .fin n m => signed n (m / unit)

/-- floor(x) (R10), of a finite x. -/
def floor : F32 → Int
  | .nan | .inf _ => 0
  | .fin n m => signed n m / (unit : Int)

/-- round_half_away(x) (R10): the nearest integer, ties away from zero, of a finite x. -/
def roundHalfAway : F32 → Int
  | .nan | .inf _ => 0
  | .fin n m => signed n ((2 * m + unit) / (2 * unit))

end F32
end Sys2Proof.Machine
end

