-- ==== Sys2Proof/Machine/Rom.lean ====
section
/-! DEFINITION. Machine/Rom.lean: the fixed contents of the two micro-program stores (30_encoding.md R106) and their
fetch. -/
namespace Sys2Proof.Machine

/-- ROM_A: `refill side 0 [1]`, `shift side 1 [1]` (R106). -/
def romAInit : Rom := ⟨0x28, 0xC8⟩

/-- ROM_B: `setclk side 1`, `setclk side 0` (R106). -/
def romBInit : Rom := ⟨0x80, 0x00⟩

/-- ROM_X[pc]: the 8-bit fetch of 43_sequencers.md R193. -/
def romFetch (r : Rom) (pc : BitVec 1) : Byte := if pc = 0 then r.word0 else r.word1

/-- The store with the word at `pc` replaced; only `State.withFetchWord` uses it, no step of the machine does. -/
def romPlace (r : Rom) (pc : BitVec 1) (u : Byte) : Rom :=
  if pc = 0 then { r with word0 := u } else { r with word1 := u }

end Sys2Proof.Machine
end

