-- ==== Sys2Proof/Machine/State.lean ====
section
/-! DEFINITION. Machine/State.lean: every piece of state the spec gives the block (10_state.md R30 to R66), the reasons
a step stops, and the state after reset (R66). -/
namespace Sys2Proof.Machine

/-- CTL's STATE (10_state.md R32). The codes 6 and 7 never occur, so they have no constructor (log entry 20). -/
inductive Ctl where
  | idle | busy | ready | settling | streaming | fault
deriving DecidableEq, Repr

/-- The fault causes (60_exceptions.md R261). Codes 14 and 15 are never recorded (log entry 20). -/
inductive Cause where
  | none | badCmd | badSeq | badRate | badBaseClk | divALow | divAHigh | divBLow | divBHigh
  | badTableSize | badTone | badCeiling | notWhole | synthRange
deriving DecidableEq, Repr

/-- The two sequencers SEQ_A and SEQ_B. -/
inductive SeqId where
  | A | B
deriving DecidableEq, Repr

/-- The sequencing state of one sequencer (R33, R34) with its divider accumulator (R59). -/
structure Sequencer where
  pc  : BitVec 1   -- pc_X: index of the next micro-instruction
  dly : BitVec 2   -- dly_X: delay ticks still to wait
  run : Bool       -- run_X: set by START, cleared by reset only
  acc : BitVec 24  -- acc_X: the clock-divider accumulator, in 1/256 units
deriving DecidableEq, Repr

/-- A table (R56, R57) as a list of (index, entry) pairs in one canonical form: indices strictly rising, no entry
equal to 0, which is what an index with no pair reads as (log entry 6). -/
abbrev Table := List (Nat × Word)

/-- What the outside can do to the block (00_scope.md R6): one event, in the order in which events happen. -/
inductive HostEvent where
  /-- a host read of `bits` bits at a byte offset (20_memory.md R72 admits 32 bits only; a partial byte enable is an
  access of fewer bits, log entry 12) -/
  | read (bits offset : Nat)
  /-- a host write of `bits` bits at a byte offset -/
  | write (bits offset : Nat) (data : Word)
  /-- a rising edge of `clk`: a base tick, or a reset where `rst` is asserted -/
  | edge
  /-- the input `rst` changes to this level (log entry 10) -/
  | rst (level : Bool)
deriving DecidableEq, Repr

/-- The whole state of the block, with the model's own fields named as such. -/
structure State where
  -- parameters (00_scope.md R8, log entry 1) and micro-program stores (R106, log entry 3): no step changes them
  params : Params
  romA : Rom
  romB : Rom
  -- CTL (R32, R36, R37, R47, R48)
  ctl : Ctl                -- STATUS.STATE
  cause : Cause            -- STATUS.CAUSE
  ign : Bool               -- STATUS.IGN
  unf : Bool               -- STATUS.UNF
  valid : Bool             -- STATUS.VALID
  faultInfo : Word         -- FAULT_INFO
  settleCnt : Nat          -- settle_cnt
  busyLeft : Nat           -- busy_left
  -- the host-visible registers that hold a value (R39)
  ctrl : BitVec 4          -- CTRL[3:0]; CTRL[31:4] is reserved and holds nothing (R38, R40, log entry 12)
  baseClk : Word           -- BASE_CLK
  toneFreq : Word          -- TONE_FREQ
  amplitude : Word         -- AMPLITUDE
  ampCeiling : Word        -- AMP_CEILING
  tableSize : Word         -- TABLE_SIZE
  divA : BitVec 24         -- DIV_A[23:0] = D256_A; DIV_A[31:24] is reserved (R49, log entry 12)
  divB : BitVec 24         -- DIV_B[23:0] = D256_B (R50)
  tblIndex : Word          -- TBL_INDEX
  encIn : Word             -- ENC_IN
  -- tables and queue (R56, R57, R58)
  sample : Table           -- SAMPLE, i32 entries as their 32 bits
  word : Table             -- WORD
  txq : List Word          -- TXQ, head first
  -- FEEDER (R35)
  j : Nat
  -- sequencers and their output side (R33, R34, R59 to R63)
  seqA : Sequencer
  seqB : Sequencer
  osr : Word               -- OSR
  osrCnt : Fin 33          -- OSR_CNT, 0 to 32
  data : Bool              -- DATA
  bck : Bool               -- BCK
  lrck : Bool              -- LRCK
  -- the block's inputs, and the model's own fields
  rst : Bool               -- level of the input `rst` (R6, R290)
  host : List HostEvent    -- MODEL'S OWN: the schedule of outside events still to come (R302, log entry 4)
  readData : Word          -- MODEL'S OWN: the data the port returned for the last host read (log entry 9)
  active : SeqId           -- MODEL'S OWN: the sequencer whose micro-step runs, or ran last (the X of R193, log entry 8)
  latencyDraw : Nat        -- MODEL'S OWN: free value, PREPARE_LATENCY − 1 of the next PREPARE (log entry 2)
  latencyIndex : Nat       -- MODEL'S OWN: how many draws of `Config.latencyDraw` have been taken
deriving DecidableEq, Repr

/-- Reasons the machine stops with a fault. None is the block's own FAULT state, which is a next state
(60_exceptions.md R262). -/
inductive Fault where
  /-- Raised by FEEDER or a table window that would read an index ≥ TABLE_CAP, an entry that does not exist; R78 says such
  an index is never generated. Safe: it stops where no behaviour is given (log entry 14). -/
  | noTableEntry
  /-- Raised by FEEDER when it steps with TABLE_SIZE = 0, where R231's modulo has no value; R231 says 1 ≤ N then. Safe
  (log entry 14). -/
  | emptyTable
deriving DecidableEq, Repr

/-- Reasons the model has no step. -/
inductive Refusal where
  /-- Raised by exec's arms for an instruction without a meaning; no arm of this model raises it. Safe. -/
  | notModelled (mnemonic : String)
  /-- Raised by the host port for an access that R72 does not admit: "A model refuses such an access". Safe. -/
  | accessForm
  /-- Raised by the host port for an access while `rst` is asserted (R290, U19: refuse). Safe. -/
  | accessInReset
  /-- Raised by a sequencer that fetches a reserved micro-instruction or a word of another format (R108, U7: refuse). Safe. -/
  | reservedUop
deriving DecidableEq, Repr

/-- What one step, one meaning or one sub-step answers. -/
abbrev Result := Host.Outcome State Fault Refusal

/-- A sequencer after reset (R33, R34, R59). -/
def Sequencer.reset : Sequencer := { pc := 0, dly := 0, run := false, acc := 0 }

/-- The state after reset (R66). The parameters are free values (log entry 1) and the tables list nothing (log entry 6). -/
def State.reset : State :=
  { params := Config.params, romA := romAInit, romB := romBInit,
    ctl := .idle, cause := .none, ign := false, unf := false, valid := false, faultInfo := 0,
    settleCnt := 0, busyLeft := 0,
    ctrl := 0, baseClk := 0, toneFreq := 0, amplitude := 0, ampCeiling := 0, tableSize := 0,
    divA := 0, divB := 0, tblIndex := 0, encIn := 0,
    sample := [], word := [], txq := [], j := 0,
    seqA := Sequencer.reset, seqB := Sequencer.reset,
    osr := 0, osrCnt := 32, data := false, bck := true, lrck := false,
    rst := false, host := [], readData := 0, active := .A,
    latencyDraw := Config.latencyDraw 0, latencyIndex := 1 }

end Sys2Proof.Machine
end

