-- ==== Sys2Proof/Machine/Ops.lean ====
section
/-! DEFINITION. Machine/Ops.lean: the named operations over tables, queue, lines and registers, and taking a fault. -/
namespace Sys2Proof.Machine

/-! ### Sequencing of partial steps -/

/-- Goes on from a next state, and stops on a fault or a refusal. -/
def andThen (r : Result) (f : State → Result) : Result :=
  match r with
  | .next s => f s
  | .fault e => .fault e
  | .refused e => .refused e

/-! ### Tables: one whole 32-bit entry per access (20_memory.md R77) -/

/-- The entry at index `i`; an index with no pair reads as 0 (log entry 6). -/
def Table.read : Table → Nat → Word
  | [], _ => 0
  | (k, v) :: t, i => if k = i then v else Table.read t i

/-- Writes entry `i`, keeping the canonical form: a written 0 removes the pair. -/
def Table.write : Table → Nat → Word → Table
  | [], i, v => if v = 0 then [] else [(i, v)]
  | (k, w) :: t, i, v =>
    if i < k then (if v = 0 then (k, w) :: t else (i, v) :: (k, w) :: t)
    else if i = k then (if v = 0 then t else (i, v) :: t)
    else (k, w) :: Table.write t i v

/-- The canonical form: indices strictly rising, no entry equal to what an unlisted index reads as. -/
def Table.wf : Table → Bool
  | [] => true
  | (k, v) :: t => v != 0 && t.all (fun c => decide (k < c.1)) && Table.wf t

/-- MemRead (R12, R77) of a table with TABLE_CAP = `cap` entries; there is no entry at `cap` or above (R70, R78). -/
def memRead (cap : Nat) (t : Table) (i : Nat) : Option Word :=
  if i < cap then some (t.read i) else none

/-! ### The output queue TXQ (44_transmitter.md R230) -/

/-- QLevel() (R230). -/
def State.qLevel (s : State) : Nat := s.txq.length

/-- QPush(v): appends at the tail (R230). -/
def State.qPush (v : Word) (s : State) : State := { s with txq := s.txq ++ [v] }

/-! ### Sequencers by name -/

/-- The sequencing state of sequencer X. -/
def State.seq (s : State) : SeqId → Sequencer
  | .A => s.seqA
  | .B => s.seqB

/-- Replaces the sequencing state of sequencer X. -/
def State.setSeq (X : SeqId) (q : Sequencer) (s : State) : State :=
  match X with
  | .A => { s with seqA := q }
  | .B => { s with seqB := q }

/-- D256_X = reg[DIV_X][23:0] (43_sequencers.md R191). -/
def State.d256 (s : State) : SeqId → BitVec 24
  | .A => s.divA
  | .B => s.divB

/-- ROM_X (30_encoding.md R106). -/
def State.rom (s : State) : SeqId → Rom
  | .A => s.romA
  | .B => s.romB

/-! ### Output lines (43_sequencers.md R200) -/

/-- drive(BCK, b). -/
def State.driveBck (b : Bool) (s : State) : State := { s with bck := b }

/-- drive(LRCK, b). -/
def State.driveLrck (b : Bool) (s : State) : State := { s with lrck := b }

/-- drive(DATA, b). -/
def State.driveData (b : Bool) (s : State) : State := { s with data := b }

/-- drive(CLK_X, b): CLK_A is BCK, CLK_B is LRCK (R194). -/
def State.driveClk (X : SeqId) (b : Bool) (s : State) : State :=
  match X with
  | .A => s.driveBck b
  | .B => s.driveLrck b

/-- The end of every micro-instruction (R193): dly_X takes its DELAY and pc_X goes on by 1 modulo 2. -/
def Sequencer.advance (delay : BitVec 2) (q : Sequencer) : Sequencer :=
  { q with dly := delay, pc := q.pc + 1 }

/-- `Sequencer.advance` for the sequencer whose micro-step runs. -/
def State.retire (delay : BitVec 2) (s : State) : State :=
  s.setSeq s.active ((s.seq s.active).advance delay)

/-! ### Taking a fault, and the one way back (60_exceptions.md R262, R265) -/

/-- `raise Fault(c, info)` (R262): STATE, CAUSE, FAULT_INFO and VALID, and nothing else. There is no saved state, vector
or mode. -/
def State.raiseFault (c : Cause) (info : Word) (s : State) : State :=
  { s with ctl := .fault, cause := c, faultInfo := info, valid := false }

/-- A clock edge with `rst` asserted (70_reset_and_hazards.md R290), the only way out of FAULT (R265): every piece of
state takes its value of R66. The parameters and the ROMs are not touched (R291); the outside's schedule and the level
of `rst` are the outside's; the latency draws go on (log entry 10). -/
def State.resetEdge (s : State) : State :=
  { State.reset with
    params := s.params, romA := s.romA, romB := s.romB, rst := s.rst, host := s.host,
    latencyDraw := s.latencyDraw, latencyIndex := s.latencyIndex }

end Sys2Proof.Machine
end

