-- ==== Sys2Proof/Machine/Flags.lean ====
section
/-! DEFINITION. Machine/Flags.lean: the STATUS register (10_state.md R37, R47): its flags and its fields. The block has no
arithmetic condition codes. -/
namespace Sys2Proof.Machine

/-- STATUS.IGN ← 1 (44_transmitter.md R242); sticky. -/
def State.setIgn (s : State) : State := { s with ign := true }

/-- STATUS.UNF ← 1 (44_transmitter.md R243); sticky. -/
def State.setUnf (s : State) : State := { s with unf := true }

/-- The code of STATE (10_state.md R32). -/
def Ctl.code : Ctl → BitVec 3
  | .idle => 0 | .busy => 1 | .ready => 2 | .settling => 3 | .streaming => 4 | .fault => 5

/-- The code of a fault cause (60_exceptions.md R261). -/
def Cause.code : Cause → BitVec 4
  | .none => 0 | .badCmd => 1 | .badSeq => 2 | .badRate => 3 | .badBaseClk => 4
  | .divALow => 5 | .divAHigh => 6 | .divBLow => 7 | .divBHigh => 8
  | .badTableSize => 9 | .badTone => 10 | .badCeiling => 11 | .notWhole => 12 | .synthRange => 13

/-- The STATUS word (R47): STATE [2:0], CAUSE [7:4], IGN [8], UNF [9], VALID [10], TXQ_LEVEL [23:16]; the other bits
are reserved and read 0. -/
def State.statusWord (s : State) : Word :=
  (0 : BitVec 8) ++ BitVec.ofNat 8 s.qLevel ++ (0 : BitVec 5) ++ BitVec.ofBool s.valid ++ BitVec.ofBool s.unf ++
    BitVec.ofBool s.ign ++ s.cause.code ++ (0 : BitVec 1) ++ s.ctl.code

/-- STATE ∈ IDLE, READY: the states in which a command or a configuration write is not ignored (44_transmitter.md R234). -/
def Ctl.accepts : Ctl → Bool
  | .idle | .ready => true
  | .busy | .settling | .streaming | .fault => false

/-- STATE ∈ SETTLING, STREAMING: START has been accepted (60_exceptions.md R267). -/
def Ctl.started : Ctl → Bool
  | .settling | .streaming => true
  | .idle | .busy | .ready | .fault => false

/-- STATE ∈ READY, SETTLING, STREAMING: a PREPARE result stands (R234, R239). -/
def Ctl.prepared : Ctl → Bool
  | .ready | .settling | .streaming => true
  | .idle | .busy | .fault => false

end Sys2Proof.Machine
end

