-- ==== Sys2Proof/Machine/Operands.lean ====
section
/-! DEFINITION. Machine/Operands.lean: where instructions take their operands from (30_encoding.md R103): the fields of
CTRL, the implicit operands of the micro-instructions, and the register map by offset (10_state.md R39). SIDE and DELAY
are the arguments of the instruction itself. -/
namespace Sys2Proof.Machine

/-- CTRL.IS24BIT = CTRL[0] (10_state.md R40). -/
def State.is24Bit (s : State) : Bool := s.ctrl.getLsbD 0

/-- CTRL.RATE_SEL = CTRL[3:1] (R40). -/
def State.rateSel (s : State) : BitVec 3 := s.ctrl.extractLsb' 1 3

/-- N = reg[TABLE_SIZE] (R45). -/
def State.tableLen (s : State) : Nat := s.tableSize.toNat

/-- REFILL's implicit operand: the head of TXQ, when there is one (R103). -/
def State.txqHead (s : State) : Option Word := s.txq.head?

/-- SHIFT1's implicit operand: OSR[0] (R103). -/
def State.osrBit (s : State) : Bool := s.osr.getLsbD 0

/-- OSR is empty exactly when OSR_CNT = 32 (10_state.md R61). -/
def State.osrEmpty (s : State) : Bool := s.osrCnt == 32

/-- min(OSR_CNT + 1, 32) (43_sequencers.md R196). -/
def countUp (c : Fin 33) : Fin 33 := ⟨min (c.val + 1) 32, by omega⟩

/-- The sixteen host-visible registers (R39). -/
inductive Reg where
  | ctrl | baseClk | toneFreq | amplitude | ampCeiling | tableSize | cmd | status
  | faultInfo | divA | divB | tblIndex | tblSample | tblWord | encIn | encOut
deriving DecidableEq, Repr

/-- The byte offset of a register (R39). -/
def Reg.offset : Reg → Nat
  | .ctrl => 0x00 | .baseClk => 0x04 | .toneFreq => 0x08 | .amplitude => 0x0C
  | .ampCeiling => 0x10 | .tableSize => 0x14 | .cmd => 0x18 | .status => 0x1C
  | .faultInfo => 0x20 | .divA => 0x24 | .divB => 0x28 | .tblIndex => 0x2C
  | .tblSample => 0x30 | .tblWord => 0x34 | .encIn => 0x38 | .encOut => 0x3C

/-- The register at a byte offset; `none` is a reserved offset (R39, 20_memory.md R73). -/
def regAt (offset : Nat) : Option Reg :=
  match offset with
  | 0x00 => some .ctrl | 0x04 => some .baseClk | 0x08 => some .toneFreq | 0x0C => some .amplitude
  | 0x10 => some .ampCeiling | 0x14 => some .tableSize | 0x18 => some .cmd | 0x1C => some .status
  | 0x20 => some .faultInfo | 0x24 => some .divA | 0x28 => some .divB | 0x2C => some .tblIndex
  | 0x30 => some .tblSample | 0x34 => some .tblWord | 0x38 => some .encIn | 0x3C => some .encOut
  | _ => none

/-- The one access form the port admits (20_memory.md R72): 32 bits, at a multiple of 4 within 0x00 to 0xFC. -/
def admitted (bits offset : Nat) : Bool := bits == 32 && offset % 4 == 0 && decide (offset ≤ 0xFC)

end Sys2Proof.Machine
end

