-- ==== Sys2Proof/Machine/Divisor.lean ====
section
/-! DEFINITION. Machine/Divisor.lean: DIVCALC, the fixed-point clock divisor calculator (40_divisor.md R130 to R139). -/
namespace Sys2Proof.Machine

/-- The SampleRateVariant table (R132): (fs, fbck = 64·fs) by RATE_SEL; 6 and 7 are reserved. -/
def rateTable (sel : BitVec 3) : Option (Nat × Nat) :=
  match sel.toNat with
  | 0 => some (32000, 2048000)
  | 1 => some (44100, 2822400)
  | 2 => some (48000, 3072000)
  | 3 => some (96000, 6144000)
  | 4 => some (192000, 12288000)
  | 5 => some (384000, 24576000)
  | _ => none

/-- What DIVCALC answers (R130). -/
inductive DivResult where
  | ok (int frac : Nat)
  | low (d : Word)    -- LOW(bits(d))
  | high (d : Word)   -- HIGH(bits(d))
deriving DecidableEq, Repr

/-- d = (baseClock ⊘ cyclesPerTransition) ⊘ targetFreq (R130). -/
def quotient (baseClock cycles target : F32) : F32 := (baseClock.div cycles).div target

/-- INT = trunc(d) (R130). -/
def divInt (d : F32) : Nat := d.trunc.toNat

/-- FRAC = trunc((d ⊖ f32(INT)) ⊗ 256.0) (R130). -/
def divFrac (d : F32) : Nat := ((d.sub (F32.ofNat (divInt d))).mul (F32.ofNat 256)).trunc.toNat

/-- The range check and the split of the quotient (R130, R133). -/
def splitDivisor (d : F32) : DivResult :=
  if d.isNan || d.lt (F32.ofNat 1) then .low d.bits
  else if d.ge (F32.ofNat 65536) then .high d.bits
  else .ok (divInt d) (divFrac d)

/-- computeDivisor(baseClock, cyclesPerTransition, targetFreq) (R130). -/
def computeDivisor (baseClock cycles target : F32) : DivResult := splitDivisor (quotient baseClock cycles target)

/-- The register value 256·INT + FRAC (R135). -/
def d256Of (int frac : Nat) : BitVec 24 := BitVec.ofNat 24 (256 * int + frac)

end Sys2Proof.Machine
end

