-- ==== Sys2Proof/Machine/Encoder.lean ====
section
/-! DEFINITION. Machine/Encoder.lean: ENC, the sample encoder (42_encoder.md R170 to R178). -/
namespace Sys2Proof.Machine

/-- rev32(u)[k] = u[31−k] (00_scope.md R9, 42_encoder.md R173). -/
def rev32 (u : Word) : Word := u.reverse

/-- Step 1 (R171): the OR of the bytes k of the list, each shifted to its place. -/
def reassemble (u : Word) (ks : List Nat) : Word :=
  ks.foldl (fun acc k => acc ||| ((byteOf u k).setWidth 32 <<< (8 * k))) 0

/-- Step 2 (R172), 24-bit mode only: seven bits of byte 3 into bits [30:24], its top bit into bit 31. -/
def placeSign (u acc : Word) : Word :=
  let b3 := byteOf u 3
  let acc := acc ||| ((b3 &&& 0x7F).setWidth 32 <<< 24)
  if b3 &&& 0x80 ≠ 0 then acc ||| (1 <<< 31) else acc

/-- encode(sample, is24Bit) (R170). -/
def encodeSample (sample : Word) (is24Bit : Bool) : Word :=
  let acc :=
    if is24Bit then placeSign sample (reassemble sample [0, 1, 2])
    else reassemble sample [0, 1, 2, 3]
  rev32 acc

/-- decode(w) = as_i32(rev32(w)) (R175), as the 32 bits of the sample. -/
def decodeSample (w : Word) : Word := rev32 w

/-- Encodes the `n` entries from index `i` on (R176). -/
def encodeFrom : (n i : Nat) → State → State
  | 0, _, s => s
  | n + 1, i, s =>
    encodeFrom n (i + 1) { s with word := s.word.write i (encodeSample (s.sample.read i) s.is24Bit) }

/-- The encoding pass of PREPARE (R176): WORD[i] for every i in 0 to N−1. -/
def encodePass (s : State) : State := encodeFrom s.tableLen 0 s

end Sys2Proof.Machine
end

