-- ==== Sys2Proof/Machine/Synth.lean ====
section
/-! DEFINITION. Machine/Synth.lean: SYNTH, the sample lookup-table synthesizer (41_synthesizer.md R150 to R161). -/
namespace Sys2Proof.Machine

/-- CEIL_MAX (R151 check 3). -/
def ceilMax (is24Bit : Bool) : Nat := if is24Bit then 2 ^ 23 - 2 else 2 ^ 31 - 2

/-- f32(2π) = 0x40C90FDB (R150, R152). -/
def twoPi : F32 := F32.flt 0x40C90FDB

/-- step = (2π ⊗ F) ⊘ R (R150). -/
def angleStep (freq rate : F32) : F32 := (twoPi.mul freq).div rate

/-- approx(a) (R153): the series up to the fifth power, in the order the rule fixes. -/
def approx (sign : CubicSign) (a : F32) : F32 :=
  let p3 := (a.mul a).mul a
  let p5 := (p3.mul a).mul a
  let t3 := p3.div (F32.ofNat 6)
  let t5 := p5.div (F32.ofNat 120)
  match sign with
  | .minus => (a.sub t3).add t5
  | .plus => (a.add t3).add t5

/-- x = Af ⊗ approx(step ⊗ f32(i)) (R150, R152). -/
def sampleValue (sign : CubicSign) (step af : F32) (i : Nat) : F32 := af.mul (approx sign (step.mul (F32.ofNat i)))

/-- The rounded sample at index i (R154), `none` where R155 raises SYNTH_RANGE. DEDUCED: where 2π ⊗ F or p5 overflows, x is
NaN even for i = 0 or A = 0 (∞ ⊗ 0); R150's pseudocode and R155 are followed there over R150's corner cases (N = 1, A = 0) and
R158's a_0 = ±0 (log entry 22). -/
def sampleAt (sign : CubicSign) (step af : F32) (ceiling : Nat) (i : Nat) : Option Int :=
  let x := sampleValue sign step af i
  if !x.isFinite then none
  else if ceiling < x.roundHalfAway.natAbs then none
  else some x.roundHalfAway

/-- The loop of R150 over the `n` indices from `i` on. An index that fails raises SYNTH_RANGE there (R155), the entries
below it keep their samples (R156). The error is the state in FAULT. -/
def synthFrom (step af : F32) : (n i : Nat) → State → Except State State
  | 0, _, s => .ok s
  | n + 1, i, s =>
    match sampleAt s.params.cubicSign step af s.ampCeiling.toNat i with
    | none => .error (s.raiseFault .synthRange (BitVec.ofNat 32 i))
    | some r => synthFrom step af n (i + 1) { s with sample := s.sample.write i (BitVec.ofInt 32 r) }

/-- generate(tableSize, frequency, sampleRate, amplitude) (R150), with sampleRate = fs. -/
def synth (fs : Nat) (s : State) : Except State State :=
  synthFrom (angleStep (F32.flt s.toneFreq) (F32.ofNat fs)) (F32.ofInt s.amplitude.toInt) s.tableLen 0 s

/-- Check 4 of R151: N·F/R is an integer, in exact rational arithmetic, for a finite F ≥ 0. -/
def wholePeriods (n : Nat) (freq : F32) (fs : Nat) : Bool :=
  match freq with
  | .fin _ mag => n * mag % (F32.unit * fs) == 0
  | .nan | .inf _ => false

/-- The preconditions of R151, in order; the first that fails raises its fault. -/
def checkSynthInputs (fs : Nat) (s : State) : Except State State :=
  if s.tableLen = 0 ∨ s.params.tableCap < s.tableLen then .error (s.raiseFault .badTableSize s.tableSize)
  else if !((F32.flt s.toneFreq).isFinite && (F32.flt s.toneFreq).ge (F32.ofNat 0)) then
    .error (s.raiseFault .badTone s.toneFreq)
  else if ceilMax s.is24Bit < s.ampCeiling.toNat then .error (s.raiseFault .badCeiling s.ampCeiling)
  else if !wholePeriods s.tableLen (F32.flt s.toneFreq) fs then .error (s.raiseFault .notWhole 0)
  else .ok s

end Sys2Proof.Machine
end

