-- ==== Sys2Proof/Machine/Prepare.lean ====
section
/-! DEFINITION. Machine/Prepare.lean: PREPARE, from its acceptance to its completion (44_transmitter.md R238, R239). -/
namespace Sys2Proof.Machine

/-- PREPARE_LATENCY of the next PREPARE: the free draw, at least 1 (00_scope.md R8, log entry 2). -/
def State.latency (s : State) : Nat := s.latencyDraw + 1

/-- Acceptance (R238): BUSY for a drawn number of ticks, the divisor registers 0, VALID 0. The next draw is taken. -/
def State.acceptPrepare (s : State) : State :=
  { s with
    ctl := .busy, busyLeft := s.latency, divA := 0, divB := 0, valid := false,
    latencyDraw := Config.latencyDraw s.latencyIndex, latencyIndex := s.latencyIndex + 1 }

/-- The first check of R239: RATE_SEL ≤ 5, and the row of the rate table. -/
def checkRate (s : State) : Except State (Nat × Nat) :=
  match rateTable s.rateSel with
  | some row => .ok row
  | none => .error (s.raiseFault .badRate (s.rateSel.setWidth 32))

/-- BASE_CLK is finite and > 0 (40_divisor.md R137). -/
def baseClkValid (w : Word) : Bool := (F32.flt w).isFinite && (F32.ofNat 0).lt (F32.flt w)

/-- The second check of R239 (40_divisor.md R137). -/
def checkBaseClk (s : State) : Except State F32 :=
  if baseClkValid s.baseClk then .ok (F32.flt s.baseClk) else .error (s.raiseFault .badBaseClk s.baseClk)

/-- SEQ_A's divisor (40_divisor.md R131, R133, R135): 4 cycles per transition, target fbck. -/
def computeDivA (base : F32) (fbck : Nat) (s : State) : Except State State :=
  match computeDivisor base (F32.ofNat 4) (F32.ofNat fbck) with
  | .low d => .error (s.raiseFault .divALow d)
  | .high d => .error (s.raiseFault .divAHigh d)
  | .ok int frac => .ok { s with divA := d256Of int frac }

/-- SEQ_B's divisor (40_divisor.md R131, R133, R135): 2 cycles per transition, target fs. -/
def computeDivB (base : F32) (fs : Nat) (s : State) : Except State State :=
  match computeDivisor base (F32.ofNat 2) (F32.ofNat fs) with
  | .low d => .error (s.raiseFault .divBLow d)
  | .high d => .error (s.raiseFault .divBHigh d)
  | .ok int frac => .ok { s with divB := d256Of int frac }

/-- The checks and computations of R239 in their order (60_exceptions.md R263), up to the encoding pass. An error is
the state in FAULT, with what earlier parts wrote (60_exceptions.md R266). -/
def prepareWork (s : State) : Except State State := do
  let (fs, fbck) ← checkRate s
  let base ← checkBaseClk s
  let s ← computeDivA base fbck s
  let s ← computeDivB base fs s
  let s ← checkSynthInputs fs s
  let s ← synth fs s
  return encodePass s

/-- PREPARE completion (R239). -/
def completePrepare (s : State) : State :=
  match prepareWork s with
  | .ok t => { t with valid := true, ctl := .ready }
  | .error t => t

end Sys2Proof.Machine
end

