-- ==== Sys2Proof/Machine/Commands.lean ====
section
/-! DEFINITION. Machine/Commands.lean: the host commands NOP, PREPARE and START, and the reserved opcodes
(44_transmitter.md R237 to R241). Each acts at the host write to CMD. -/
namespace Sys2Proof.Machine

/-- NOP (R237). -/
def execNop (s : State) : Result :=
  if s.ctl.accepts then .next s else .next s.setIgn

/-- PREPARE (R238): acceptance. Its faults come at completion (R239). -/
def execPrepare (s : State) : Result :=
  if s.ctl.accepts then .next s.acceptPrepare else .next s.setIgn

/-- The sequencing state START gives a sequencer with divisor `d` (43_sequencers.md R199): running, at its first
micro-instruction, with acc_X = D256_X − 256. -/
def Sequencer.started (d : BitVec 24) : Sequencer := { pc := 0, dly := 0, run := true, acc := d - 256 }

/-- The atomic joint start of both sequencers, with the rest of an accepted START (R240, 43_sequencers.md R199). -/
def State.jointStart (s : State) : State :=
  { s with
    ctl := .settling, settleCnt := 0, j := 0,
    seqA := Sequencer.started s.divA, seqB := Sequencer.started s.divB }

/-- START (R240). -/
def execStart (s : State) : Result :=
  match s.ctl with
  | .ready => .next s.jointStart
  | .idle => .next (s.raiseFault .badSeq 0x2)
  | .busy | .settling | .streaming | .fault => .next s.setIgn

/-- A reserved command opcode 0x3 to 0xF (R241). -/
def reservedCommand (opcode : BitVec 4) (s : State) : State :=
  if s.ctl.accepts then s.raiseFault .badCmd (opcode.setWidth 32) else s.setIgn

end Sys2Proof.Machine
end

