-- ==== Sys2Proof/Machine/Micro.lean ====
section
/-! DEFINITION. Machine/Micro.lean: the micro-instructions SETCLK, REFILL and SHIFT1 (43_sequencers.md R194 to R196), each
with the end of its micro-step (R193). The sequencer X that executes is `active` (log entry 8). An
instruction that the ROMs hold for the other sequencer only acts as its rule says (log entry 11). -/
namespace Sys2Proof.Machine

/-- SETCLK (R194): drive(CLK_X, SIDE). -/
def execSetclk (side : Bool) (delay : BitVec 2) (s : State) : Result :=
  .next ((s.driveClk s.active side).retire delay)

/-- The refill of an empty buffer (R195): the head of TXQ, or 32 zero bits when TXQ is empty, which sets UNF while
STREAMING; OSR_CNT ← 0 in both cases. -/
def State.reload (s : State) : State :=
  match s.txq with
  | w :: rest => { s with osr := w, txq := rest, osrCnt := 0 }
  | [] =>
    let s := { s with osr := 0, osrCnt := 0 }
    if s.ctl = .streaming then s.setUnf else s

/-- REFILL (R195). -/
def execRefill (side : Bool) (delay : BitVec 2) (s : State) : Result :=
  let s := s.driveBck side
  let s := if s.osrEmpty then s.reload else s
  .next (s.retire delay)

/-- One bit of OSR onto DATA, least significant first, with zero fill (R196). -/
def State.shiftOut (s : State) : State :=
  { s.driveData s.osrBit with osr := s.osr >>> 1, osrCnt := countUp s.osrCnt }

/-- SHIFT1 (R196). -/
def execShift1 (side : Bool) (delay : BitVec 2) (s : State) : Result :=
  .next (((s.driveBck side).shiftOut).retire delay)

/-- `n` bits shifted out in a row (42_encoder.md R178). -/
def shiftBits : Nat → State → State
  | 0, s => s
  | n + 1, s => (shiftBits n s).shiftOut

end Sys2Proof.Machine
end

