-- ==== Sys2Proof/Machine/Dispatch.lean ====
section
/-! DEFINITION. Machine/Dispatch.lean: from an instruction to its meaning. -/
namespace Sys2Proof.Machine

/-- One arm per constructor of `Instr`. -/
def exec (i : Instr) (s : State) : Host.Outcome State Fault Refusal :=
  match i with
  | .nop => Sys2Proof.Machine.execNop s
  | .prepare => Sys2Proof.Machine.execPrepare s
  | .start => Sys2Proof.Machine.execStart s
  | .setclk side delay => Sys2Proof.Machine.execSetclk side delay s
  | .refill side delay => Sys2Proof.Machine.execRefill side delay s
  | .shift1 side delay => Sys2Proof.Machine.execShift1 side delay s

end Sys2Proof.Machine
end

