-- ==== Sys2Proof/Machine/Sequencers.lean ====
section
/-! DEFINITION. Machine/Sequencers.lean: the clock dividers and the micro-step (43_sequencers.md R190 to R193). -/
namespace Sys2Proof.Machine

/-- The divider's sum acc_X + 256 (R191), exact. -/
def dividerSum (acc : BitVec 24) : Nat := acc.toNat + 256

/-- tick_X (R191): acc_X + 256 ≥ D256_X. -/
def dividerFires (d acc : BitVec 24) : Bool := decide (d.toNat ≤ dividerSum acc)

/-- acc_X after a base tick (R191), in the 24 bits of acc_X (log entry 13). -/
def dividerNext (d acc : BitVec 24) : BitVec 24 :=
  BitVec.ofNat 24 (if dividerFires d acc then dividerSum acc - d.toNat else dividerSum acc)

/-- acc_X of a divider with D256_X = `d`, `k` base ticks after START (R191, R192). -/
def dividerAfter (d : BitVec 24) : Nat → BitVec 24
  | 0 => d - 256
  | k + 1 => dividerNext d (dividerAfter d k)

/-- tick_X of sequencer X in this base tick; a sequencer that does not run has none (R190, R191). -/
def State.fires (s : State) (X : SeqId) : Bool := (s.seq X).run && dividerFires (s.d256 X) (s.seq X).acc

/-- The divider of sequencer X in this base tick; it does not count while run_X = 0 (R190). -/
def State.divide (X : SeqId) (s : State) : State :=
  if (s.seq X).run then s.setSeq X { s.seq X with acc := dividerNext (s.d256 X) (s.seq X).acc } else s

/-- Executes the micro-instruction word `u` on the active sequencer: `exec` of what it decodes to. A reserved word, and a
word that is no micro-instruction, is refused by name (30_encoding.md R108). -/
def execWord (u : Byte) (s : State) : Result :=
  match decodeBytes [u] with
  | .ok i => exec i s
  | .error _ => .refused .reservedUop

/-- The micro-step of sequencer X (R193): a delay tick, or the fetch and execution of ROM_X[pc_X]. -/
def microStep (X : SeqId) (s : State) : Result :=
  if (s.seq X).dly ≠ 0 then .next (s.setSeq X { s.seq X with dly := (s.seq X).dly - 1 })
  else execWord (romFetch (s.rom X) (s.seq X).pc) { s with active := X }

/-- A base tick's micro-step of X: only where tick_X. -/
def microStepIf (fires : Bool) (X : SeqId) (s : State) : Result := if fires then microStep X s else .next s

/-- Places the micro-instruction word `u` where SEQ_A fetches next, and lets the next base tick be one that fetches it:
SEQ_A runs, is past its delays and its divider fires; SEQ_B does not run (log entry 7). -/
def State.placeUop (u : Byte) (s : State) : State :=
  let d : BitVec 24 := if s.divA.toNat < 256 then 256 else s.divA
  { s with
    rst := false, host := .edge :: s.host, romA := romPlace s.romA s.seqA.pc u, divA := d,
    seqA := { s.seqA with dly := 0, run := true, acc := d - 256 }, seqB := { s.seqB with run := false } }

end Sys2Proof.Machine
end

