-- ==== Sys2Proof/Machine/Transmitter.lean ====
section
/-! DEFINITION. Machine/Transmitter.lean: FEEDER, the settle delay, the BUSY countdown and the base tick
(44_transmitter.md R231, R233, R239; 43_sequencers.md R204). -/
namespace Sys2Proof.Machine

/-- Step 1 of a base tick: the BUSY countdown; PREPARE completes where it reaches 0 (43_sequencers.md R204). -/
def State.countdown (s : State) : State :=
  if s.ctl = .busy then
    let s := { s with busyLeft := s.busyLeft - 1 }
    if s.busyLeft = 0 then completePrepare s else s
  else s

/-- Step 4 of a base tick: the settle step (44_transmitter.md R233). -/
def State.settle (s : State) : State :=
  if s.ctl = .settling then
    if s.settleCnt = s.params.settleTicks then { s with ctl := .streaming }
    else { s with settleCnt := s.settleCnt + 1 }
  else s

/-- Step 5 of a base tick: the FEEDER step (44_transmitter.md R231). -/
def feed (s : State) : Result :=
  if s.ctl = .streaming ∧ s.qLevel < s.params.txqDepth then
    match memRead s.params.tableCap s.word s.j with
    | none => .fault .noTableEntry
    | some w =>
      if s.tableLen = 0 then .fault .emptyTable
      else .next { s.qPush w with j := (s.j + 1) % s.tableLen }
  else .next s

/-- Steps 1 and 2 of a base tick: countdown, then both dividers. -/
def State.tickFront (s : State) : State := ((s.countdown).divide .A).divide .B

/-- One base tick (43_sequencers.md R204): countdown, dividers, SEQ_B, SEQ_A, settle step, FEEDER, each on the results of
those before it. -/
def baseTick (s : State) : Result :=
  let c := s.countdown
  andThen (microStepIf (c.fires .B) .B s.tickFront) fun t =>
  andThen (microStepIf (c.fires .A) .A t) fun t =>
  feed t.settle

/-- A rising edge of `clk` (70_reset_and_hazards.md R290): a reset while `rst` is asserted, else a base tick. -/
def clockEdge (s : State) : Result := if s.rst then .next s.resetEdge else baseTick s

/-- `n` base ticks in a row. -/
def baseTicks : Nat → State → Result
  | 0, s => .next s
  | n + 1, s => andThen (baseTick s) (baseTicks n)

/-- `n` micro-steps of sequencer X in a row: its X-ticks 0 to n−1 (00_scope.md R13). -/
def microSteps (X : SeqId) : Nat → State → Result
  | 0, s => .next s
  | n + 1, s => andThen (microSteps X n s) (microStep X)

end Sys2Proof.Machine
end

