-- ==== Sys2Proof/Machine/HostPort.lean ====
section
/-! DEFINITION. Machine/HostPort.lean: the host register port (10_state.md R38 to R55, 20_memory.md R72 to R80,
44_transmitter.md R235, R236) and the events of the outside. -/
namespace Sys2Proof.Machine

/-- A read of a table window (R52, R53): the entry at TBL_INDEX when VALID = 1 and TBL_INDEX < TABLE_SIZE, else 0.
`none` is an entry that does not exist. -/
def State.window (t : Table) (s : State) : Option Word :=
  if s.valid = true ∧ s.tblIndex.toNat < s.tableLen then memRead s.params.tableCap t s.tblIndex.toNat else some 0

/-- The value a read of a register returns (R40 to R55); CMD reads 0 (R46). -/
def readReg (r : Reg) (s : State) : Option Word :=
  match r with
  | .ctrl => some (s.ctrl.setWidth 32)
  | .baseClk => some s.baseClk
  | .toneFreq => some s.toneFreq
  | .amplitude => some s.amplitude
  | .ampCeiling => some s.ampCeiling
  | .tableSize => some s.tableSize
  | .cmd => some 0
  | .status => some s.statusWord
  | .faultInfo => some s.faultInfo
  | .divA => some (s.divA.setWidth 32)
  | .divB => some (s.divB.setWidth 32)
  | .tblIndex => some s.tblIndex
  | .tblSample => s.window s.sample
  | .tblWord => s.window s.word
  | .encIn => some s.encIn
  | .encOut => some (encodeSample s.encIn s.is24Bit)

/-- An admitted host read: the value goes to the port, and nothing else changes (20_memory.md R76); a reserved offset
reads 0 (R73). -/
def hostRead (offset : Nat) (s : State) : Result :=
  match regAt offset with
  | none => .next { s with readData := 0 }
  | some r =>
    match readReg r s with
    | some v => .next { s with readData := v }
    | none => .fault .noTableEntry

/-- A configuration write (44_transmitter.md R235): stored in IDLE and READY, READY also goes to IDLE and clears VALID;
ignored with IGN in the other states. -/
def configWrite (store : State → State) (s : State) : State :=
  match s.ctl with
  | .idle => store s
  | .ready => { store s with ctl := .idle, valid := false }
  | .busy | .settling | .streaming | .fault => s.setIgn

/-- A write to CMD (10_state.md R46): `exec` of the command, or a reserved opcode (44_transmitter.md R241). -/
def writeCmd (w : Word) (s : State) : Result :=
  match decodeBytes (wordBytes w) with
  | .ok i => exec i s
  | .error _ => .next (reservedCommand (hcmdOpcode w) s)

/-- A write to a register. A write to a read-only register is dropped (R38); TBL_INDEX and ENC_IN are stored in every
STATE (R51, R54); CTRL keeps bits [3:0] (R40). -/
def writeReg (r : Reg) (w : Word) (s : State) : Result :=
  match r with
  | .ctrl => .next (configWrite (fun t => { t with ctrl := w.setWidth 4 }) s)
  | .baseClk => .next (configWrite (fun t => { t with baseClk := w }) s)
  | .toneFreq => .next (configWrite (fun t => { t with toneFreq := w }) s)
  | .amplitude => .next (configWrite (fun t => { t with amplitude := w }) s)
  | .ampCeiling => .next (configWrite (fun t => { t with ampCeiling := w }) s)
  | .tableSize => .next (configWrite (fun t => { t with tableSize := w }) s)
  | .cmd => writeCmd w s
  | .tblIndex => .next { s with tblIndex := w }
  | .encIn => .next { s with encIn := w }
  | .status | .faultInfo | .divA | .divB | .tblSample | .tblWord | .encOut => .next s

/-- An admitted host write; a write to a reserved offset is ignored (20_memory.md R73). -/
def hostWrite (offset : Nat) (w : Word) (s : State) : Result :=
  match regAt offset with
  | none => .next s
  | some r => writeReg r w s

/-- A host access of the admitted form, outside reset; any other has no step (20_memory.md R72, 70_reset_and_hazards.md
R290). -/
def hostAccess (bits offset : Nat) (act : State → Result) (s : State) : Result :=
  if s.rst then .refused .accessInReset
  else if admitted bits offset then act s
  else .refused .accessForm

/-- One event of the outside (44_transmitter.md R236: an access takes effect whole, between two base ticks). -/
def hostEvent (e : HostEvent) (s : State) : Result :=
  match e with
  | .read bits offset => hostAccess bits offset (hostRead offset) s
  | .write bits offset w => hostAccess bits offset (hostWrite offset w) s
  | .edge => clockEdge s
  | .rst level => .next { s with rst := level }

/-- Places the host command word `w` as the next event of the schedule, with `rst` deasserted (log entry 7). -/
def State.placeCommand (w : Word) (s : State) : State :=
  { s with rst := false, host := .write 32 Reg.cmd.offset w :: s.host }

end Sys2Proof.Machine
end

