-- ==== Sys2Proof/Machine/Step.lean ====
section
/-! DEFINITION. Machine/Step.lean: one step of the machine: the next event of the outside's schedule, and a rising edge
of `clk` when the schedule is at its end (the clock runs until reset, 60_exceptions.md R274). -/
namespace Sys2Proof.Machine

/-- One step. -/
def step (s : State) : Host.Outcome State Fault Refusal :=
  match s.host with
  | [] => clockEdge s
  | e :: rest => hostEvent e { s with host := rest }

/-- `s` with a table word placed where the next step fetches its instruction: up to 8 bits are a micro-instruction in
SEQ_A's store, more are a host command word written to CMD (log entries 7 and 18). -/
def State.withFetchWord (s : State) (nbits w : Nat) : State :=
  if nbits ≤ 8 then s.placeUop (BitVec.ofNat 8 w) else s.placeCommand (BitVec.ofNat 32 w)

end Sys2Proof.Machine
end

