-- ==== Sys2Proof/Machine/Assembly.lean ====
section
/-! DEFINITION. Machine/Assembly.lean: the two listing syntaxes of the spec: micro-programs (30_encoding.md R111) and host
programs (R112). They serve listings, tests and schedules; no step of the machine reads them. -/
namespace Sys2Proof.Machine

/-- The mnemonics of the micro-assembly; `nop` is the pseudo-instruction for `setclk` (R111). -/
inductive AsmOp where
  | setclk | refill | shift | nop
deriving DecidableEq, Repr

/-- One line `op side b [d]`; a `[d]` left out means d = 0 (R111). -/
structure AsmLine where
  op : AsmOp
  side : Bool
  delay : Option (BitVec 2) := none
deriving DecidableEq, Repr

/-- The instruction of a line (R111). -/
def AsmLine.instr (l : AsmLine) : Instr :=
  match l.op with
  | .setclk | .nop => .setclk l.side (l.delay.getD 0)
  | .refill => .refill l.side (l.delay.getD 0)
  | .shift => .shift1 l.side (l.delay.getD 0)

/-- The word of a line: `uopWord` of its fields (R102, R111). -/
def AsmLine.word (l : AsmLine) : Byte :=
  match l.op with
  | .setclk | .nop => uopWord l.side 0b00 (l.delay.getD 0)
  | .refill => uopWord l.side 0b01 (l.delay.getD 0)
  | .shift => uopWord l.side 0b10 (l.delay.getD 0)

/-- A program is the two lines of one ROM; the wrap after index 1 takes no encoding (R111). -/
def assembleRom (line0 line1 : AsmLine) : Rom := ⟨line0.word, line1.word⟩

/-- The line that lists a micro-instruction; a host command has none. -/
def listLine : Instr → Option AsmLine
  | .setclk side delay => some ⟨.setclk, side, some delay⟩
  | .refill side delay => some ⟨.refill, side, some delay⟩
  | .shift1 side delay => some ⟨.shift, side, some delay⟩
  | .nop | .prepare | .start => none

/-- The text of a line, for listings (R111). -/
def AsmLine.text (l : AsmLine) : String :=
  (match l.op with
    | .setclk => "setclk" | .refill => "refill" | .shift => "shift" | .nop => "nop") ++
  " side " ++ (if l.side then "1" else "0") ++
  (match l.delay with
    | none => ""
    | some d => " [" ++ toString d.toNat ++ "]")

/-- The names CMD takes (R112). -/
inductive CmdName where
  | nop | prepare | start
deriving DecidableEq, Repr

/-- NOP = 0x0, PREPARE = 0x1, START = 0x2 (R112). -/
def CmdName.opcode : CmdName → Word
  | .nop => 0x0 | .prepare => 0x1 | .start => 0x2

/-- A line of a host program (R112). POLL runs on the host's own control flow, one read an iteration, so its line
carries how many reads the host made. -/
inductive HostLine where
  | wr (reg : Reg) (imm : Word)
  | rd (reg : Reg)
  | cmd (name : CmdName)
  | poll (reg : Reg) (reads : Nat)
  | wait (ticks : Nat)
deriving DecidableEq, Repr

/-- The events of a line: accesses encoded as (direction, offset, data), WAIT as base ticks without an access (R112). -/
def HostLine.events : HostLine → List HostEvent
  | .wr reg imm => [.write 32 reg.offset imm]
  | .rd reg => [.read 32 reg.offset]
  | .cmd name => [.write 32 Reg.cmd.offset name.opcode]
  | .poll reg reads => List.replicate reads (.read 32 reg.offset)
  | .wait ticks => List.replicate ticks .edge

/-- The schedule of a host program. -/
def hostProgram (lines : List HostLine) : List HostEvent := lines.flatMap HostLine.events

end Sys2Proof.Machine
end

