-- ==== Sys2Proof/Safety.lean ====
section
/-! DEFINITION. Safety.lean: what a safe run is: the events the block admits, and the invariants of the state that claims
use. -/
namespace Sys2Proof.Machine

/-- The next event of the schedule has a step in this state: a clock edge, a change of `rst`, or an access of the admitted
form outside reset (20_memory.md R72, 70_reset_and_hazards.md R290). -/
def State.nextEventAdmitted (s : State) : Bool :=
  match s.host with
  | .read bits offset :: _ | .write bits offset _ :: _ => !s.rst && admitted bits offset
  | .edge :: _ | .rst _ :: _ | [] => true

/-- The next step is a clock edge. -/
abbrev State.edgeNext (s : State) : Prop := s.host = [] ∨ s.host.head? = some .edge

/-- The next step is a clock edge with `rst` asserted. -/
abbrev State.resetNext (s : State) : Prop := s.rst = true ∧ s.edgeNext

/-- Two states with the same host-visible registers, but for STATUS.UNF and STATUS.TXQ_LEVEL, and the same tables, counters,
stores and inputs: what no micro-step writes (43_sequencers.md R193). -/
abbrev State.SameControl (s t : State) : Prop :=
  t.params = s.params ∧ t.romA = s.romA ∧ t.romB = s.romB ∧ t.ctl = s.ctl ∧ t.cause = s.cause ∧ t.ign = s.ign ∧
  t.valid = s.valid ∧ t.faultInfo = s.faultInfo ∧ t.settleCnt = s.settleCnt ∧ t.busyLeft = s.busyLeft ∧
  t.ctrl = s.ctrl ∧ t.baseClk = s.baseClk ∧ t.toneFreq = s.toneFreq ∧ t.amplitude = s.amplitude ∧
  t.ampCeiling = s.ampCeiling ∧ t.tableSize = s.tableSize ∧ t.divA = s.divA ∧ t.divB = s.divB ∧
  t.tblIndex = s.tblIndex ∧ t.encIn = s.encIn ∧ t.sample = s.sample ∧ t.word = s.word ∧ t.j = s.j ∧
  t.rst = s.rst ∧ t.host = s.host ∧ t.readData = s.readData ∧ t.latencyDraw = s.latencyDraw ∧
  t.latencyIndex = s.latencyIndex

/-- Two states that agree on everything PREPARE completion reads (44_transmitter.md R239): the frozen configuration and the
parameters, and the divisor registers that acceptance has cleared. -/
abbrev State.SameConfig (s t : State) : Prop :=
  t.params.tableCap = s.params.tableCap ∧ t.params.cubicSign = s.params.cubicSign ∧
  t.ctrl = s.ctrl ∧ t.baseClk = s.baseClk ∧ t.toneFreq = s.toneFreq ∧ t.amplitude = s.amplitude ∧
  t.ampCeiling = s.ampCeiling ∧ t.tableSize = s.tableSize ∧ t.divA = s.divA ∧ t.divB = s.divB

/-- Two states that agree on everything the waveforms of BCK and LRCK follow from (43_sequencers.md R205): the sequencers,
their divisors and stores, and the two lines. -/
abbrev State.SameClocks (s t : State) : Prop :=
  t.seqA = s.seqA ∧ t.seqB = s.seqB ∧ t.divA = s.divA ∧ t.divB = s.divB ∧ t.romA = s.romA ∧ t.romB = s.romB ∧
  t.bck = s.bck ∧ t.lrck = s.lrck

/-- The invariant of the block: what holds in every state a run reaches from reset. -/
structure State.Inv (s : State) : Prop where
  /-- 00_scope.md R8. -/
  paramsLegal : s.params.Legal
  /-- 30_encoding.md R106: present from reset and never written. -/
  romsFixed : s.romA = romAInit ∧ s.romB = romBInit
  /-- Both tables keep their canonical form. -/
  tablesCanonical : s.sample.wf = true ∧ s.word.wf = true
  /-- The sequencers run exactly from START on (43_sequencers.md R199, R206). -/
  runsIffStarted : s.seqA.run = s.ctl.started ∧ s.seqB.run = s.ctl.started
  /-- VALID is 1 exactly while a PREPARE result stands (10_state.md R37). -/
  validIffPrepared : s.valid = s.ctl.prepared
  /-- CAUSE is 0 unless STATE = FAULT, and not 0 there (10_state.md R47, 60_exceptions.md R261). -/
  causeIffFault : s.cause = .none ↔ s.ctl ≠ .fault
  /-- FAULT_INFO reads 0 while no fault has been raised (10_state.md R48). -/
  infoNeedsFault : s.cause = .none → s.faultInfo = 0
  /-- busy_left is at least 1 in BUSY (44_transmitter.md R238). -/
  busyCounts : s.ctl = .busy → 1 ≤ s.busyLeft
  /-- settle_cnt is at most SETTLE_TICKS (10_state.md R36). -/
  settleBound : s.settleCnt ≤ s.params.settleTicks
  /-- A PREPARE result has a legal table length and legal divisors (41_synthesizer.md R151, 43_sequencers.md R191). -/
  preparedSizes : s.ctl.prepared = true →
    1 ≤ s.tableLen ∧ s.tableLen ≤ s.params.tableCap ∧ 256 ≤ s.divA.toNat ∧ 256 ≤ s.divB.toNat
  /-- 0 ≤ j < TABLE_CAP (10_state.md R35). -/
  feederIndex : s.j < s.params.tableCap
  /-- j stays below N from START on (20_memory.md R78). -/
  feederBelowLen : s.ctl.started = true → s.j < s.tableLen
  /-- 0 ≤ acc_X < D256_X while X runs (43_sequencers.md R191). -/
  dividerBound : s.ctl.started = true → s.seqA.acc.toNat < s.divA.toNat ∧ s.seqB.acc.toNat < s.divB.toNat
  /-- TXQ never holds more than TXQ_DEPTH words (44_transmitter.md R230). -/
  queueBound : s.txq.length ≤ s.params.txqDepth
  /-- TXQ is empty until FEEDER first runs (44_transmitter.md R240). -/
  queueBeforeStreaming : s.ctl ≠ .streaming → s.txq = []
  /-- Between base ticks, TXQ holds a word throughout STREAMING (44_transmitter.md R244). -/
  queueWhileStreaming : s.ctl = .streaming → s.txq ≠ []
  /-- UNF is never set (44_transmitter.md R244). -/
  noUnderrun : s.unf = false
  /-- Before t0 the lines and the sequencers are at their reset values (43_sequencers.md R200). -/
  beforeStart : s.ctl.started = false →
    s.data = false ∧ s.bck = true ∧ s.lrck = false ∧ s.osr = 0 ∧ s.osrCnt = 32 ∧
    s.seqA = Sequencer.reset ∧ s.seqB = Sequencer.reset

/-- While a PREPARE result stands, every WORD entry is the encoding of its SAMPLE entry, and every sample is within the
amplitude ceiling, which is legal (10_state.md R56, R57; 42_encoder.md R176). -/
def State.TablesCoherent (s : State) : Prop :=
  s.ctl.prepared = true →
    s.ampCeiling.toNat ≤ ceilMax s.is24Bit ∧
    ∀ i, i < s.tableLen →
      s.word.read i = encodeSample (s.sample.read i) s.is24Bit ∧ (s.sample.read i).toInt.natAbs ≤ s.ampCeiling.toNat

/-- While STREAMING, TXQ holds, head first, the words of the table that lie just before entry j, in table order and
modulo N (20_memory.md R81): no word is dropped, repeated or reordered between FEEDER and REFILL. -/
def State.StreamOrder (s : State) : Prop :=
  s.ctl = .streaming →
    ∀ i, i < s.qLevel →
      s.txq[i]? = some (s.word.read ((s.j + (s.qLevel * s.tableLen - s.qLevel) + i) % s.tableLen))

/-- OSR holds only the bits not yet shifted out; with OSR_CNT = 32 it is 0 (43_sequencers.md R196). -/
def State.BufferZeroFilled (s : State) : Prop := s.osr.toNat < 2 ^ (32 - s.osrCnt.val)

/-- Every SHIFT1 of Program A finds a bit: after a REFILL the buffer is not empty, and the delays are those of the ROM words
(43_sequencers.md R196, R197). -/
def State.ProgramPhase (s : State) : Prop :=
  (s.seqA.pc = 1 → s.osrCnt ≠ 32) ∧ s.seqA.dly.toNat ≤ 1 ∧ s.seqB.dly = 0

end Sys2Proof.Machine
end

