-- ==== Sys2Proof/Certificates/Slice0/Obligations.lean ====
section
/-! DEFINITION. Obligations.lean: the statements for the provers, one `def Obligations.<Name> : Prop` each
(OBLIGATIONS.json lists them). -/
open Sys2Proof Sys2Proof.Machine

/-! ### Encoding -/

/-- Decoding and encoding agree on every instruction and every word: the encoder's bytes of an instruction decode to
it; a byte that decodes is the encoder's byte; a word that decodes has the encoder's opcode field (30_encoding.md R101,
R102, R104). -/
def Obligations.DecodeEncodeAgree : Prop :=
  (∀ i : Instr, decodeBytes (encode i) = .ok i) ∧
  (∀ (u : Byte) (i : Instr), decodeBytes [u] = .ok i → encode i = [u]) ∧
  (∀ (w : Word) (i : Instr), decodeBytes (wordBytes w) = .ok i →
    ∃ w' : Word, encode i = wordBytes w' ∧ w'.extractLsb' 0 4 = w.extractLsb' 0 4)

/-- R101: OPCODE = CMD[3:0] alone decides what a host command word is, whatever the bits [31:4] are. -/
def Obligations.HostCommandDecodesByOpcode : Prop :=
  ∀ w : Word,
    (w.extractLsb' 0 4 = 0x0 → decodeBytes (wordBytes w) = .ok .nop) ∧
    (w.extractLsb' 0 4 = 0x1 → decodeBytes (wordBytes w) = .ok .prepare) ∧
    (w.extractLsb' 0 4 = 0x2 → decodeBytes (wordBytes w) = .ok .start) ∧
    (3 ≤ (w.extractLsb' 0 4).toNat →
      decodeBytes (wordBytes w) = .error (.reservedOpcode (w.extractLsb' 0 4)))

/-- R102, R104: a micro-instruction word selects its instruction by match and mask, with SIDE = u[7] and DELAY = u[4:3],
and selects one exactly when RSV = 000 and OP ≠ 11. -/
def Obligations.UopWordSelectsInstruction : Prop :=
  ∀ u : Byte,
    (u &&& 0x67 = 0x00 → decodeBytes [u] = .ok (.setclk (u.getLsbD 7) (u.extractLsb' 3 2))) ∧
    (u &&& 0x67 = 0x20 → decodeBytes [u] = .ok (.refill (u.getLsbD 7) (u.extractLsb' 3 2))) ∧
    (u &&& 0x67 = 0x40 → decodeBytes [u] = .ok (.shift1 (u.getLsbD 7) (u.extractLsb' 3 2))) ∧
    ((∃ i, decodeBytes [u] = .ok i) ↔ u.extractLsb' 0 3 = 0 ∧ u.extractLsb' 5 2 ≠ 3)

/-- Words of the spec and what they stand for (R101, R106, 95_test_vectors.md V-SEQ-1). -/
def Obligations.SpecWordsDecode : Prop :=
  decodeBytes [0x28] = .ok (.refill false 1) ∧ decodeBytes [0xC8] = .ok (.shift1 true 1) ∧
  decodeBytes [0x80] = .ok (.setclk true 0) ∧ decodeBytes [0x00] = .ok (.setclk false 0) ∧
  decodeBytes [0x98] = .ok (.setclk true 3) ∧ decodeBytes [0x60] = .error .reservedOp ∧
  decodeBytes [0x81] = .error .reservedRsv ∧
  decodeBytes [0x00, 0x00, 0x00, 0x00] = .ok .nop ∧ decodeBytes [0x01, 0x00, 0x00, 0x00] = .ok .prepare ∧
  decodeBytes [0x02, 0x00, 0x00, 0x00] = .ok .start ∧
  decodeBytes [0xF3, 0xFF, 0xFF, 0xFF] = .error (.reservedOpcode 0x3)

/-! ### What a step runs -/

/-- A step runs the decoded host command: with a word written to CMD (offset 0x18) next and `rst` deasserted, the step is
`exec` of what the word decodes to, on the state with that event taken (10_state.md R46, 44_transmitter.md R236). -/
def Obligations.StepRunsHostCommand : Prop :=
  ∀ (s : State) (w : Word) (rest : List HostEvent) (i : Instr),
    s.rst = false → s.host = .write 32 0x18 w :: rest → decodeBytes (wordBytes w) = .ok i →
    step s = exec i { s with host := rest }

/-- A step runs the decoded micro-instructions: in a clock edge outside reset and BUSY, a sequencer whose divider fires and
that is past its delay runs `exec` of the word at its pc, after the dividers; SEQ_B before SEQ_A; then the settle step and
FEEDER (43_sequencers.md R193, R204). -/
def Obligations.StepRunsMicroInstruction : Prop :=
  ∀ (s : State) (i k : Instr), s.rst = false → s.edgeNext → s.ctl ≠ .busy →
    (s.fires .A = true → s.fires .B = false → s.seqA.dly = 0 →
      decodeBytes [romFetch s.romA s.seqA.pc] = .ok i →
      step s = andThen (exec i { ({ s with host := s.host.tail } : State).tickFront with active := .A })
        fun t => feed t.settle) ∧
    (s.fires .A = false → s.fires .B = true → s.seqB.dly = 0 →
      decodeBytes [romFetch s.romB s.seqB.pc] = .ok i →
      step s = andThen (exec i { ({ s with host := s.host.tail } : State).tickFront with active := .B })
        fun t => feed t.settle) ∧
    (s.fires .A = true → s.fires .B = true → s.seqA.dly = 0 → s.seqB.dly = 0 →
      decodeBytes [romFetch s.romB s.seqB.pc] = .ok i → decodeBytes [romFetch s.romA s.seqA.pc] = .ok k →
      step s = andThen (exec i { ({ s with host := s.host.tail } : State).tickFront with active := .B })
        fun t => andThen (exec k { t with active := .A }) fun t => feed t.settle)

/-- R108: a reserved micro-instruction word (OP = 11, or RSV ≠ 000) is refused by name where a sequencer fetches it; the
fixed ROM contents hold none. -/
def Obligations.ReservedUopIsRefused : Prop :=
  (∀ (s : State) (X : SeqId), (s.seq X).dly = 0 →
    ((romFetch (s.rom X) (s.seq X).pc).extractLsb' 5 2 = 3 ∨ (romFetch (s.rom X) (s.seq X).pc).extractLsb' 0 3 ≠ 0) →
    microStep X s = .refused .reservedUop) ∧
  (∀ pc : BitVec 1, (∃ i, decodeBytes [romFetch romAInit pc] = .ok i) ∧ ∃ i, decodeBytes [romFetch romBInit pc] = .ok i)

/-- R72: the port admits exactly the 32-bit access at a multiple of 4 within 0x00 to 0xFC, which the step then carries
out; any other access has no step. -/
def Obligations.OnlyAlignedWordAccessesAdmitted : Prop :=
  ∀ (s : State) (bits offset : Nat) (w : Word) (rest : List HostEvent), s.rst = false →
    (s.host = .read bits offset :: rest →
      (bits = 32 ∧ offset % 4 = 0 ∧ offset ≤ 0xFC → step s = hostRead offset { s with host := rest }) ∧
      (¬ (bits = 32 ∧ offset % 4 = 0 ∧ offset ≤ 0xFC) → step s = .refused .accessForm)) ∧
    (s.host = .write bits offset w :: rest →
      (bits = 32 ∧ offset % 4 = 0 ∧ offset ≤ 0xFC → step s = hostWrite offset w { s with host := rest }) ∧
      (¬ (bits = 32 ∧ offset % 4 = 0 ∧ offset ≤ 0xFC) → step s = .refused .accessForm))

/-! ### Host commands -/

/-- R237: NOP does nothing in IDLE and READY, and only sets IGN in every other state; every word with opcode 0x0 written to
CMD is a NOP. -/
def Obligations.NopEffect : Prop :=
  ∀ s : State,
    (∀ w : Word, w.extractLsb' 0 4 = 0x0 → hostWrite 0x18 w s = exec .nop s) ∧
    (s.ctl = .idle ∨ s.ctl = .ready → exec .nop s = .next s) ∧
    (¬ (s.ctl = .idle ∨ s.ctl = .ready) → exec .nop s = .next { s with ign := true })

/-- R238: PREPARE in IDLE or READY goes to BUSY with busy_left an L ≥ 1, clears DIV_A, DIV_B and VALID, and changes nothing
else but the model's own record of draws; in every other state it only sets IGN. Every word with opcode 0x1 written to CMD is
a PREPARE, and CAUSE and FAULT_INFO are 0 where it is accepted in a state of the invariant. BUSY then lasts exactly L base
ticks (43_sequencers.md R204 step 1, 70_reset_and_hazards.md R300): in a state of the invariant, a base tick in BUSY is the
countdown alone, each of the first L − 1 takes 1 off busy_left and does nothing else, and the L-th ends in READY or FAULT. -/
def Obligations.PrepareAcceptance : Prop :=
  ∀ s : State,
    (∀ w : Word, w.extractLsb' 0 4 = 0x1 → hostWrite 0x18 w s = exec .prepare s) ∧
    (s.Inv → s.ctl = .idle ∨ s.ctl = .ready → s.cause = .none ∧ s.faultInfo = 0) ∧
    (s.ctl = .idle ∨ s.ctl = .ready →
      ∃ latency draw index : Nat, 1 ≤ latency ∧
        exec .prepare s = .next { s with
          ctl := .busy, busyLeft := latency, divA := 0, divB := 0, valid := false,
          latencyDraw := draw, latencyIndex := index }) ∧
    (¬ (s.ctl = .idle ∨ s.ctl = .ready) → exec .prepare s = .next { s with ign := true }) ∧
    (s.Inv → s.ctl = .busy →
      baseTick s = .next s.countdown ∧ (2 ≤ s.busyLeft → s.countdown = { s with busyLeft := s.busyLeft - 1 })) ∧
    (s.Inv → s.ctl = .idle ∨ s.ctl = .ready →
      ∃ t u : State, exec .prepare s = .next t ∧
        (∀ n, n < t.busyLeft → baseTicks n t = .next { t with busyLeft := t.busyLeft - n }) ∧
        baseTicks t.busyLeft t = .next u ∧ (u.ctl = .ready ∨ u.ctl = .fault) ∧ u.busyLeft = 0)

/-- R240: START in READY starts both sequencers in the same write (both run bits, both at their first micro-instruction,
acc_X = D256_X − 256, R199), with settle_cnt and j at 0; in IDLE it raises BAD_SEQ; elsewhere it only sets IGN. Every word
with opcode 0x2 written to CMD is a START, and TXQ is empty where it is accepted in a state of the invariant. -/
def Obligations.StartEffect : Prop :=
  ∀ s : State,
    (∀ w : Word, w.extractLsb' 0 4 = 0x2 → hostWrite 0x18 w s = exec .start s) ∧
    (s.Inv → s.ctl = .ready → s.txq = []) ∧
    (s.ctl = .ready →
      exec .start s = .next { s with
        ctl := .settling, settleCnt := 0, j := 0,
        seqA := { pc := 0, dly := 0, run := true, acc := s.divA - 256 },
        seqB := { pc := 0, dly := 0, run := true, acc := s.divB - 256 } }) ∧
    (s.ctl = .idle →
      exec .start s = .next { s with ctl := .fault, cause := .badSeq, faultInfo := 0x2, valid := false }) ∧
    (s.ctl ≠ .ready → s.ctl ≠ .idle → exec .start s = .next { s with ign := true })

/-- R241: a reserved opcode 0x3 to 0xF written to CMD raises BAD_CMD with the opcode in IDLE and READY, and only sets IGN in
every other state; bits [31:4] do not matter. -/
def Obligations.ReservedCommandEffect : Prop :=
  ∀ (s : State) (w : Word) (rest : List HostEvent),
    s.rst = false → s.host = .write 32 0x18 w :: rest → 3 ≤ (w.extractLsb' 0 4).toNat →
    (s.ctl = .idle ∨ s.ctl = .ready →
      step s = .next { s with
        host := rest, ctl := .fault, cause := .badCmd, faultInfo := (w.extractLsb' 0 4).setWidth 32, valid := false }) ∧
    (¬ (s.ctl = .idle ∨ s.ctl = .ready) → step s = .next { s with host := rest, ign := true })

/-! ### The host port -/

/-- Configuration writes and CMD writes in BUSY, SETTLING, STREAMING and FAULT set IGN and do nothing else; IGN stays
set until reset (44_transmitter.md R242). Writes to TBL_INDEX and ENC_IN are stored without it in every STATE
(10_state.md R51, R54, 44_transmitter.md R234); that they are stored in FAULT too is the model's reading, R234 followed
over R302 (log entry 15, DEDUCED). Writes to read-only registers and reserved offsets do nothing (10_state.md R38,
20_memory.md R73). -/
def Obligations.IgnFlag : Prop :=
  (∀ (s : State) (w : Word) (r : Reg),
    r ∈ [Reg.ctrl, .baseClk, .toneFreq, .amplitude, .ampCeiling, .tableSize, .cmd] →
    s.ctl ≠ .idle → s.ctl ≠ .ready → hostWrite r.offset w s = .next { s with ign := true }) ∧
  (∀ s t : State, s.ign = true → step s = .next t → t.ign = true ∨ s.resetNext) ∧
  (∀ (s : State) (w : Word),
    hostWrite 0x2C w s = .next { s with tblIndex := w } ∧ hostWrite 0x38 w s = .next { s with encIn := w }) ∧
  (∀ (s : State) (w : Word) (offset : Nat),
    offset ∈ [0x1C, 0x20, 0x24, 0x28, 0x30, 0x34, 0x3C] ∨ 0x40 ≤ offset → hostWrite offset w s = .next s)

/-- R235: a configuration write is stored in IDLE; in READY it is stored and STATE goes to IDLE with VALID cleared; in
the other states it is not stored and sets IGN. Only bits [3:0] of CTRL are stored. -/
def Obligations.ConfigurationWrite : Prop :=
  ∀ (s : State) (w : Word),
    (s.ctl = .idle →
      hostWrite 0x00 w s = .next { s with ctrl := w.extractLsb' 0 4 } ∧
      hostWrite 0x04 w s = .next { s with baseClk := w } ∧
      hostWrite 0x08 w s = .next { s with toneFreq := w } ∧
      hostWrite 0x0C w s = .next { s with amplitude := w } ∧
      hostWrite 0x10 w s = .next { s with ampCeiling := w } ∧
      hostWrite 0x14 w s = .next { s with tableSize := w }) ∧
    (s.ctl = .ready →
      hostWrite 0x00 w s = .next { s with ctrl := w.extractLsb' 0 4, ctl := .idle, valid := false } ∧
      hostWrite 0x04 w s = .next { s with baseClk := w, ctl := .idle, valid := false } ∧
      hostWrite 0x08 w s = .next { s with toneFreq := w, ctl := .idle, valid := false } ∧
      hostWrite 0x0C w s = .next { s with amplitude := w, ctl := .idle, valid := false } ∧
      hostWrite 0x10 w s = .next { s with ampCeiling := w, ctl := .idle, valid := false } ∧
      hostWrite 0x14 w s = .next { s with tableSize := w, ctl := .idle, valid := false }) ∧
    (s.ctl ≠ .idle → s.ctl ≠ .ready → ∀ offset ∈ [0x00, 0x04, 0x08, 0x0C, 0x10, 0x14],
      hostWrite offset w s = .next { s with ign := true })

/-- R73: a read at a reserved offset returns 0, a write there is ignored and sets no flag; neither changes anything
else. -/
def Obligations.ReservedOffsets : Prop :=
  ∀ (s : State) (w : Word) (offset : Nat), offset % 4 = 0 → 0x40 ≤ offset → offset ≤ 0xFC →
    hostRead offset s = .next { s with readData := 0 } ∧ hostWrite offset w s = .next s

/-- A host read at any offset answers, and changes nothing but the data on the port (20_memory.md R76), in every state
of the invariant. In every state, CMD reads 0 (10_state.md R46), FAULT_INFO the recorded word (R48), DIV_A and DIV_B
D256 in bits [23:0] with bits [31:24] = 0 (R49, R50), CTRL its fields with bits [31:4] = 0 (R40), and the other
read-write registers the stored word (R41 to R45, R51, R54). -/
def Obligations.HostReadHasNoSideEffect : Prop :=
  (∀ (s : State) (offset : Nat), s.Inv → ∃ v : Word, hostRead offset s = .next { s with readData := v }) ∧
  ∀ s : State,
    hostRead 0x18 s = .next { s with readData := 0 } ∧
    hostRead 0x20 s = .next { s with readData := s.faultInfo } ∧
    (∃ v : Word, hostRead 0x24 s = .next { s with readData := v } ∧ v.extractLsb' 0 24 = s.divA ∧ v.extractLsb' 24 8 = 0) ∧
    (∃ v : Word, hostRead 0x28 s = .next { s with readData := v } ∧ v.extractLsb' 0 24 = s.divB ∧ v.extractLsb' 24 8 = 0) ∧
    (∃ v : Word, hostRead 0x00 s = .next { s with readData := v } ∧ v.extractLsb' 0 4 = s.ctrl ∧ v.extractLsb' 4 28 = 0) ∧
    hostRead 0x04 s = .next { s with readData := s.baseClk } ∧ hostRead 0x08 s = .next { s with readData := s.toneFreq } ∧
    hostRead 0x0C s = .next { s with readData := s.amplitude } ∧
    hostRead 0x10 s = .next { s with readData := s.ampCeiling } ∧
    hostRead 0x14 s = .next { s with readData := s.tableSize } ∧
    hostRead 0x2C s = .next { s with readData := s.tblIndex } ∧ hostRead 0x38 s = .next { s with readData := s.encIn }

/-- R47: what a read of STATUS returns, field by field, in every state of the invariant. -/
def Obligations.StatusRead : Prop :=
  ∀ s : State, s.Inv → ∃ v : Word, hostRead 0x1C s = .next { s with readData := v } ∧
    (v.extractLsb' 0 3).toNat = (match s.ctl with
      | .idle => 0 | .busy => 1 | .ready => 2 | .settling => 3 | .streaming => 4 | .fault => 5) ∧
    v.getLsbD 3 = false ∧
    (v.extractLsb' 4 4).toNat = (match s.cause with
      | .none => 0 | .badCmd => 1 | .badSeq => 2 | .badRate => 3 | .badBaseClk => 4 | .divALow => 5 | .divAHigh => 6
      | .divBLow => 7 | .divBHigh => 8 | .badTableSize => 9 | .badTone => 10 | .badCeiling => 11 | .notWhole => 12
      | .synthRange => 13) ∧
    (s.ctl ≠ .fault → v.extractLsb' 4 4 = 0) ∧
    v.getLsbD 8 = s.ign ∧ v.getLsbD 9 = s.unf ∧ v.getLsbD 10 = s.valid ∧
    v.extractLsb' 11 5 = 0 ∧ (v.extractLsb' 16 8).toNat = s.txq.length ∧ v.extractLsb' 24 8 = 0

/-- R38, R40 to R45, R51, R54: what is written to a read-write register in IDLE is what a read of it returns; CTRL keeps
bits [3:0] and its reserved bits read 0. -/
def Obligations.WriteThenRead : Prop :=
  ∀ (s : State) (w : Word), s.ctl = .idle →
    (∃ t, hostWrite 0x00 w s = .next t ∧ hostRead 0x00 t = .next { t with readData := w &&& 0xF }) ∧
    ∀ offset ∈ [0x04, 0x08, 0x0C, 0x10, 0x14, 0x2C, 0x38],
      ∃ t, hostWrite offset w s = .next t ∧ hostRead offset t = .next { t with readData := w }

/-- R52, R53: a table window reads the entry at TBL_INDEX when VALID = 1 and TBL_INDEX < TABLE_SIZE, and 0 otherwise, in
every state of the invariant. -/
def Obligations.TableWindowRead : Prop :=
  ∀ s : State, s.Inv →
    (s.valid = true → s.tblIndex.toNat < s.tableSize.toNat →
      hostRead 0x30 s = .next { s with readData := s.sample.read s.tblIndex.toNat } ∧
      hostRead 0x34 s = .next { s with readData := s.word.read s.tblIndex.toNat }) ∧
    (s.valid = false ∨ s.tableSize.toNat ≤ s.tblIndex.toNat →
      hostRead 0x30 s = .next { s with readData := 0 } ∧ hostRead 0x34 s = .next { s with readData := 0 })

/-- A read of ENC_OUT returns the bit reversal of ENC_IN, in every state and in both modes (R55, 42_encoder.md R174,
R177). -/
def Obligations.EncoderPortRead : Prop :=
  ∀ s : State, hostRead 0x3C s = .next { s with readData := s.encIn.reverse }

/-! ### The encoder -/

/-- R173: the reversal maps bit k to bit 31−k for all 32 bits. -/
def Obligations.BitReversal : Prop :=
  (∀ (u : Word) (k : Nat), k < 32 → (rev32 u).getLsbD k = u.getLsbD (31 - k)) ∧
  rev32 0x80000000 = 0x00000001 ∧ rev32 0x00000001 = 0x80000000 ∧ rev32 0 = 0

/-- R174: for every sample and both modes, the encoded word is the bit reversal of the sample. -/
def Obligations.EncoderClosedForm : Prop :=
  ∀ (sample : Word) (is24Bit : Bool), encodeSample sample is24Bit = rev32 sample

/-- R175: the decoder recovers the sample exactly, and every word is the encoding of the sample it decodes to. -/
def Obligations.EncoderBijection : Prop :=
  (∀ (sample : Word) (is24Bit : Bool), decodeSample (encodeSample sample is24Bit) = sample) ∧
  (∀ (w : Word) (is24Bit : Bool), encodeSample (decodeSample w) is24Bit = w)

/-- With the encoding of a sample in OSR, the k-th SHIFT1 drives bit 31−k of the sample onto DATA: most significant bit
first, all 32 bits (30_encoding.md R110, 42_encoder.md R178). -/
def Obligations.SlotCarriesSampleMsbFirst : Prop :=
  ∀ (s : State) (sample : Word) (is24Bit : Bool) (k : Nat),
    s.osr = encodeSample sample is24Bit → s.osrCnt = 0 → k < 32 →
    (shiftBits (k + 1) s).data = sample.getLsbD (31 - k) ∧ (shiftBits (k + 1) s).osrCnt.val = k + 1

/-! ### Micro-instructions -/

/-- R194: SETCLK drives SIDE onto BCK on SEQ_A and onto LRCK on SEQ_B; with the end of the micro-step (R193) nothing else
changes. Its words are those with match 0x00 under mask 0x67, and ROM_A holds none of them. -/
def Obligations.SetclkEffect : Prop :=
  (∀ u : Byte, u &&& 0x67 = 0x00 → decodeBytes [u] = .ok (.setclk (u.getLsbD 7) (u.extractLsb' 3 2))) ∧
  (∀ pc : BitVec 1, romFetch romAInit pc &&& 0x67 ≠ 0x00) ∧
  ∀ (s : State) (side : Bool) (delay : BitVec 2),
    (s.active = .A → exec (.setclk side delay) s =
      .next { s with bck := side, seqA := { s.seqA with pc := s.seqA.pc + 1, dly := delay } }) ∧
    (s.active = .B → exec (.setclk side delay) s =
      .next { s with lrck := side, seqB := { s.seqB with pc := s.seqB.pc + 1, dly := delay } })

/-- REFILL (43_sequencers.md R195) drives BCK; a buffer that is not empty stays; an empty one takes the head of TXQ, or
32 zero bits when TXQ is empty, with OSR_CNT ← 0, and UNF ← 1 in the latter case while STREAMING. Nothing else changes
but the end of the micro-step (`retire`, R193). Its words are those with match 0x20 under mask 0x67, and ROM_B holds
none of them. On SEQ_B it drives BCK too: that case is the model's reading, R195 followed over R102 (log entry 11,
DEDUCED). -/
def Obligations.RefillEffect : Prop :=
  (∀ u : Byte, u &&& 0x67 = 0x20 → decodeBytes [u] = .ok (.refill (u.getLsbD 7) (u.extractLsb' 3 2))) ∧
  (∀ pc : BitVec 1, romFetch romBInit pc &&& 0x67 ≠ 0x20) ∧
  ∀ (s : State) (side : Bool) (delay : BitVec 2),
    (s.osrCnt ≠ 32 → exec (.refill side delay) s = .next (({ s with bck := side } : State).retire delay)) ∧
    (∀ (w : Word) (rest : List Word), s.osrCnt = 32 → s.txq = w :: rest →
      exec (.refill side delay) s =
        .next (({ s with bck := side, osr := w, txq := rest, osrCnt := 0 } : State).retire delay)) ∧
    (s.osrCnt = 32 → s.txq = [] → s.ctl = .streaming →
      exec (.refill side delay) s =
        .next (({ s with bck := side, osr := 0, osrCnt := 0, unf := true } : State).retire delay)) ∧
    (s.osrCnt = 32 → s.txq = [] → s.ctl ≠ .streaming →
      exec (.refill side delay) s = .next (({ s with bck := side, osr := 0, osrCnt := 0 } : State).retire delay))

/-- SHIFT1 (43_sequencers.md R196) drives BCK, drives OSR[0] onto DATA, shifts OSR right by one with zero fill, and
counts up to 32. Nothing else changes but the end of the micro-step (`retire`, R193). An empty buffer, which holds 0,
drives 0 and stays empty. Its words are those with match 0x40 under mask 0x67, and ROM_B holds none of them. On SEQ_B it
drives BCK too: that case is the model's reading, R196 followed over R102 (log entry 11, DEDUCED). -/
def Obligations.Shift1Effect : Prop :=
  (∀ u : Byte, u &&& 0x67 = 0x40 → decodeBytes [u] = .ok (.shift1 (u.getLsbD 7) (u.extractLsb' 3 2))) ∧
  (∀ pc : BitVec 1, romFetch romBInit pc &&& 0x67 ≠ 0x40) ∧
  ∀ (s : State) (side : Bool) (delay : BitVec 2),
    ∃ t : State, exec (.shift1 side delay) s = .next (t.retire delay) ∧
      t = { s with bck := side, data := s.osr.getLsbD 0, osr := t.osr, osrCnt := t.osrCnt } ∧
      t.osr.toNat = s.osr.toNat / 2 ∧ t.osrCnt.val = min (s.osrCnt.val + 1) 32 ∧
      (s.BufferZeroFilled → s.osrCnt = 32 → t.data = false ∧ t.osr = 0 ∧ t.osrCnt = 32)

/-- R193: a delay tick counts dly_X down and changes nothing else; otherwise the word at ROM_X[pc_X] executes, dly_X takes
its DELAY and pc_X goes on by 1 modulo 2. Neither the other sequencer nor a register other than UNF (and the queue level)
changes. -/
def Obligations.MicroStepEffect : Prop :=
  ∀ (s : State) (X : SeqId),
    ((s.seq X).dly ≠ 0 → microStep X s = .next (s.setSeq X { s.seq X with dly := (s.seq X).dly - 1 })) ∧
    (∀ u : Byte, (s.seq X).dly = 0 → u = romFetch (s.rom X) (s.seq X).pc →
      u.extractLsb' 0 3 = 0 → u.extractLsb' 5 2 ≠ 3 →
      ∃ (i : Instr) (t : State), decodeBytes [u] = .ok i ∧ exec i { s with active := X } = .next t ∧
        microStep X s = .next t ∧
        t.seq X = { s.seq X with dly := u.extractLsb' 3 2, pc := (s.seq X).pc + 1 } ∧
        (∀ Y, Y ≠ X → t.seq Y = s.seq Y) ∧ s.SameControl t)

/-- R200: the lines change only when a micro-instruction drives them: not in an event that is no clock edge, and not in a
base tick in which each sequencer does not fire or is in a delay tick. -/
def Obligations.LinesHold : Prop :=
  ∀ s t : State, step s = .next t →
    (¬ s.edgeNext → t.data = s.data ∧ t.bck = s.bck ∧ t.lrck = s.lrck) ∧
    (s.edgeNext → s.rst = false →
      (∀ X, s.countdown.fires X = false ∨ (s.seq X).dly ≠ 0) →
      t.data = s.data ∧ t.bck = s.bck ∧ t.lrck = s.lrck)

/-! ### Dividers -/

/-- R191: START loads acc_X with D256_X − 256; with a legal divisor the divider fires exactly when acc_X + 256 ≥ D256_X,
takes D256_X off then, and stays below D256_X; from the value START loads it fires and is left at 0. -/
def Obligations.DividerTick : Prop :=
  (∀ s t : State, s.ctl = .ready → exec .start s = .next t →
    t.seqA.acc = s.divA - 256 ∧ t.seqB.acc = s.divB - 256) ∧
  (∀ (s : State) (X : SeqId), (s.seq X).run = true → 256 ≤ (s.d256 X).toNat →
    (s.seq X).acc.toNat < (s.d256 X).toNat →
    (s.fires X = true ↔ (s.d256 X).toNat ≤ (s.seq X).acc.toNat + 256) ∧
    ((s.divide X).seq X).acc.toNat =
      (if (s.d256 X).toNat ≤ (s.seq X).acc.toNat + 256 then (s.seq X).acc.toNat + 256 - (s.d256 X).toNat
        else (s.seq X).acc.toNat + 256) ∧
    ((s.divide X).seq X).acc.toNat < (s.d256 X).toNat ∧
    ((s.seq X).acc = s.d256 X - 256 → s.fires X = true ∧ ((s.divide X).seq X).acc = 0))

/-- The closed form of the divider (R192): counted from t0, it fires in exactly the base ticks ceil(n · D256 / 256). -/
def Obligations.DividerClosedForm : Prop :=
  ∀ d : BitVec 24, 256 ≤ d.toNat → ∀ k : Nat,
    dividerFires d (dividerAfter d k) = true ↔ ∃ n : Nat, k = (n * d.toNat + 255) / 256

/-! ### Transmitter -/

/-- R231: while STREAMING with room in TXQ, FEEDER pushes WORD[j] and j goes on modulo TABLE_SIZE; in every other case
it does nothing. -/
def Obligations.FeederStep : Prop :=
  ∀ s : State,
    (s.ctl = .streaming → s.txq.length < s.params.txqDepth → s.j < s.params.tableCap → 1 ≤ s.tableSize.toNat →
      feed s = .next { s with txq := s.txq ++ [s.word.read s.j], j := (s.j + 1) % s.tableSize.toNat }) ∧
    (s.ctl ≠ .streaming ∨ s.params.txqDepth ≤ s.txq.length → feed s = .next s)

/-- The settle delay (R233): after a START accepted in READY, base ticks t0 to t0 + SETTLE_TICKS − 1 end in SETTLING with the
count of them and an empty TXQ, and STATE is STREAMING from base tick t0 + SETTLE_TICKS on, in which FEEDER makes its first
push, WORD[0]; every one of these ticks answers. -/
def Obligations.SettleDelayLength : Prop :=
  ∀ s : State, s.Inv → s.ctl = .ready → ∀ n : Nat,
    ∃ t u : State, exec .start s = .next t ∧ baseTicks (n + 1) t = .next u ∧
      (n < s.params.settleTicks → u.ctl = .settling ∧ u.settleCnt = n + 1 ∧ u.txq = []) ∧
      (s.params.settleTicks ≤ n → u.ctl = .streaming) ∧
      (n = s.params.settleTicks → u.txq = [s.word.read 0])

/-- No word is dropped, repeated or reordered in TXQ (20_memory.md R81, 44_transmitter.md R232): every step keeps the order
of the stream, from every state of the invariant. -/
def Obligations.StepKeepsStreamOrder : Prop :=
  ∀ s t : State, s.Inv → s.StreamOrder → step s = .next t → t.StreamOrder

/-- The first transitions (43_sequencers.md R199, R201): after a START accepted in READY, the first base tick takes LRCK from
0 to 1 and BCK from 1 to 0, leaves DATA at 0, and leaves both dividers at 0. -/
def Obligations.FirstTransitionsInOneTick : Prop :=
  ∀ s : State, s.Inv → s.ctl = .ready →
    ∃ t u : State, exec .start s = .next t ∧ baseTick t = .next u ∧
      t.lrck = false ∧ u.lrck = true ∧ t.bck = true ∧ u.bck = false ∧ t.data = false ∧ u.data = false ∧
      u.seqA.acc = 0 ∧ u.seqB.acc = 0

/-- The timeline of Program A (43_sequencers.md R197) over any number n of A-ticks: where the program stands, the level of
BCK (low for two A-ticks, high for two), and OSR_CNT, which a refill sets back every 128 A-ticks. -/
def Obligations.ProgramATimeline : Prop :=
  ∀ (s : State) (n : Nat), s.romA = romAInit → s.seqA.pc = 0 → s.seqA.dly = 0 → s.osrCnt = 32 →
    ∃ t : State, microSteps .A n s = .next t ∧
      t.seqA.pc.toNat = (n + 1) / 2 % 2 ∧ t.seqA.dly.toNat = n % 2 ∧
      (1 ≤ n → t.bck = decide ((n + 1) / 2 % 2 = 0) ∧ t.osrCnt.val = ((n - 1) % 128 + 2) / 4)

/-- The timeline of Program B (43_sequencers.md R198) over any number n of B-ticks: LRCK is high for one B-tick and low for
one, and SEQ_B touches nothing of SEQ_A's. -/
def Obligations.ProgramBTimeline : Prop :=
  ∀ (s : State) (n : Nat), s.romB = romBInit → s.seqB.pc = 0 → s.seqB.dly = 0 →
    ∃ t : State, microSteps .B n s = .next t ∧
      t.seqB.pc.toNat = n % 2 ∧ t.seqB.dly = 0 ∧ (1 ≤ n → t.lrck = decide (n % 2 = 1)) ∧
      t.seqA = s.seqA ∧ t.osr = s.osr ∧ t.osrCnt = s.osrCnt ∧ t.txq = s.txq ∧ t.data = s.data ∧ t.bck = s.bck

/-- The waveforms of BCK and LRCK do not depend on the host, FEEDER, TXQ or CTL (43_sequencers.md R205): two states outside
BUSY that agree on the sequencers, the divisors, the stores and the two lines agree on them after a base tick. -/
def Obligations.ClockWaveformsIndependent : Prop :=
  ∀ s s' t t' : State, s.ctl ≠ .busy → s'.ctl ≠ .busy → s.SameClocks s' →
    baseTick s = .next t → baseTick s' = .next t' → t.SameClocks t'

/-! ### Faults -/

/-- R262: a step that enters FAULT, from a state of the invariant, changes STATE, CAUSE, FAULT_INFO and VALID, and nothing
else but what the PREPARE wrote before it (the divisor registers, SAMPLE, and the countdown that ended); at a CMD write not
even those. (The event is taken off the outside's schedule.) -/
def Obligations.FaultEntry : Prop :=
  ∀ s t : State, s.Inv → s.ctl ≠ .fault → step s = .next t → t.ctl = .fault →
    t.cause ≠ .none ∧
    t = { s with
      ctl := .fault, cause := t.cause, faultInfo := t.faultInfo, valid := false,
      busyLeft := t.busyLeft, divA := t.divA, divB := t.divB, sample := t.sample, host := s.host.tail } ∧
    (¬ s.edgeNext → t.busyLeft = s.busyLeft ∧ t.divA = s.divA ∧ t.divB = s.divB ∧ t.sample = s.sample)

/-- R265: FAULT is left only by reset, CAUSE and FAULT_INFO keep their values until then, and a CMD write in FAULT only sets
IGN. -/
def Obligations.OnlyResetLeavesFault : Prop :=
  (∀ s t : State, s.ctl = .fault → step s = .next t →
    s.resetNext ∨ (t.ctl = .fault ∧ t.cause = s.cause ∧ t.faultInfo = s.faultInfo)) ∧
  (∀ (s : State) (w : Word), s.ctl = .fault → hostWrite 0x18 w s = .next { s with ign := true })

/-- FAULT is quiescent (70_reset_and_hazards.md R302): in a state of the invariant, no base tick changes any state. -/
def Obligations.FaultIsQuiescent : Prop :=
  ∀ s : State, s.Inv → s.ctl = .fault → baseTick s = .next s

/-- R267: once START has been accepted, STATE is SETTLING or STREAMING until reset; a CMD write only sets IGN; the cause, the
divisors and the run bits stay. -/
def Obligations.NoFaultWhileStarted : Prop :=
  (∀ s t : State, s.ctl = .settling ∨ s.ctl = .streaming → step s = .next t →
    s.resetNext ∨
    ((t.ctl = .settling ∨ t.ctl = .streaming) ∧ t.cause = s.cause ∧ t.faultInfo = s.faultInfo ∧
      t.divA = s.divA ∧ t.divB = s.divB ∧ t.seqA.run = s.seqA.run ∧ t.seqB.run = s.seqB.run)) ∧
  (∀ (s : State) (w : Word), s.ctl = .settling ∨ s.ctl = .streaming →
    hostWrite 0x18 w s = .next { s with ign := true })

/-- R260: FAULT is entered only by a host write to CMD or by PREPARE completion. -/
def Obligations.FaultsComeOnlyFromCommandsAndPrepare : Prop :=
  ∀ s t : State, s.ctl ≠ .fault → step s = .next t → t.ctl = .fault →
    (∃ (w : Word) (rest : List HostEvent), s.host = .write 32 0x18 w :: rest) ∨
    (s.edgeNext ∧ s.rst = false ∧ s.ctl = .busy ∧ s.busyLeft ≤ 1)

/-! ### PREPARE completion -/

/-- A RATE_SEL of 6 or 7 makes PREPARE completion raise BAD_RATE with RATE_SEL, before anything else is computed
(44_transmitter.md R239, 60_exceptions.md R261, R263). -/
def Obligations.BadRateFault : Prop :=
  ∀ s : State, s.ctl = .busy → s.busyLeft = 1 → 6 ≤ (s.ctrl.extractLsb' 1 3).toNat →
    s.countdown = { s with
      busyLeft := 0, ctl := .fault, cause := .badRate, faultInfo := (s.ctrl.extractLsb' 1 3).setWidth 32, valid := false }

/-- R137: BASE_CLK is legal exactly when it is finite and > 0, said on its bits; a PREPARE with a legal rate and an illegal
BASE_CLK raises BAD_BASE_CLK with the register's value, before either divisor is computed. -/
def Obligations.BaseClockValidity : Prop :=
  (∀ w : Word, baseClkValid w = true ↔
    w.getLsbD 31 = false ∧ w.extractLsb' 23 8 ≠ 255 ∧ w.extractLsb' 0 31 ≠ 0) ∧
  (∀ s : State, s.ctl = .busy → s.busyLeft = 1 → (s.ctrl.extractLsb' 1 3).toNat ≤ 5 → baseClkValid s.baseClk = false →
    s.countdown = { s with
      busyLeft := 0, ctl := .fault, cause := .badBaseClk, faultInfo := s.baseClk, valid := false })

/-- R133: a LOW or HIGH quotient of SEQ_A or of SEQ_B raises its fault with bits(d), for any base value and target; in a
PREPARE it ends the work there. (Inside a PREPARE a LOW quotient of SEQ_B cannot follow an accepted one of SEQ_A: it is 128
times as large.) The cases are those of the quotient d itself. -/
def Obligations.DivisorRangeFaults : Prop :=
  (∀ (s : State) (base : F32) (target : Nat),
    let dA := quotient base (F32.ofNat 4) (F32.ofNat target)
    let dB := quotient base (F32.ofNat 2) (F32.ofNat target)
    (dA.isNan = true ∨ dA.lt (F32.ofNat 1) = true → computeDivA base target s = .error { s with
      ctl := .fault, cause := .divALow, faultInfo := dA.bits, valid := false }) ∧
    (dA.ge (F32.ofNat 65536) = true → computeDivA base target s = .error { s with
      ctl := .fault, cause := .divAHigh, faultInfo := dA.bits, valid := false }) ∧
    (dB.isNan = true ∨ dB.lt (F32.ofNat 1) = true → computeDivB base target s = .error { s with
      ctl := .fault, cause := .divBLow, faultInfo := dB.bits, valid := false }) ∧
    (dB.ge (F32.ofNat 65536) = true → computeDivB base target s = .error { s with
      ctl := .fault, cause := .divBHigh, faultInfo := dB.bits, valid := false })) ∧
  (∀ (s : State) (fs fbck : Nat), s.ctl = .busy → s.busyLeft = 1 → rateTable s.rateSel = some (fs, fbck) →
    baseClkValid s.baseClk = true →
    (∀ t, computeDivA (F32.flt s.baseClk) fbck { s with busyLeft := 0 } = .error t → s.countdown = t) ∧
    (∀ t u, computeDivA (F32.flt s.baseClk) fbck { s with busyLeft := 0 } = .ok t →
      computeDivB (F32.flt s.baseClk) fs t = .error u → s.countdown = u))

/-- R135: an accepted quotient of SEQ_A or SEQ_B writes 256·INT + FRAC to its divisor register, and nothing else. -/
def Obligations.DivisorRegisters : Prop :=
  ∀ (s : State) (base : F32) (target int frac : Nat),
    (computeDivisor base (F32.ofNat 4) (F32.ofNat target) = .ok int frac →
      computeDivA base target s = .ok { s with divA := BitVec.ofNat 24 (256 * int + frac) } ∧
      (BitVec.ofNat 24 (256 * int + frac)).toNat = 256 * int + frac) ∧
    (computeDivisor base (F32.ofNat 2) (F32.ofNat target) = .ok int frac →
      computeDivB base target s = .ok { s with divB := BitVec.ofNat 24 (256 * int + frac) } ∧
      (BitVec.ofNat 24 (256 * int + frac)).toNat = 256 * int + frac)

/-- The accuracy of an accepted divisor (40_divisor.md R130, R136): 1 ≤ INT ≤ 65535, FRAC ≤ 255, and
0 ≤ d − (INT + FRAC/256) < 1/256 exactly, where d is DIVCALC's quotient, in units of 2^-149. -/
def Obligations.DivisorAccuracy : Prop :=
  ∀ (base cycles target : F32) (int frac : Nat), computeDivisor base cycles target = .ok int frac →
    ∃ mag : Nat, quotient base cycles target = .fin false mag ∧
      1 ≤ int ∧ int ≤ 65535 ∧ frac ≤ 255 ∧
      (256 * int + frac) * 2 ^ 141 ≤ mag ∧ mag < (256 * int + frac + 1) * 2 ^ 141

/-- The lock condition (70_reset_and_hazards.md R295): a base clock of K · fs with 256 ≤ K < 131072 gives D256_A = K and
D256_B = 128 · K exactly, for each of the six rates. -/
def Obligations.LockedDivisors : Prop :=
  ∀ (sel : BitVec 3) (fs fbck K : Nat) (base : Word), rateTable sel = some (fs, fbck) →
    256 ≤ K → K < 131072 → F32.flt base = .fin false (K * fs * F32.unit) →
    ∃ intA fracA intB fracB : Nat,
      computeDivisor (F32.flt base) (F32.ofNat 4) (F32.ofNat fbck) = .ok intA fracA ∧ 256 * intA + fracA = K ∧
      computeDivisor (F32.flt base) (F32.ofNat 2) (F32.ofNat fs) = .ok intB fracB ∧ 256 * intB + fracB = 128 * K

/-- R151: the four checks before the first sample, in their order; the first that fails raises its fault and ends
PREPARE. TONE_FREQ is judged on its bits; N·F/R is an integer exactly when R divides N·F. The second part says where
PREPARE ends: after two accepted divisors, with what a failed check or SYNTH's fault left (60_exceptions.md R263, R266). -/
def Obligations.SynthInputChecks : Prop :=
  (∀ (s : State) (fs : Nat),
    let sizeOk := 1 ≤ s.tableSize.toNat ∧ s.tableSize.toNat ≤ s.params.tableCap
    let toneOk := s.toneFreq.extractLsb' 23 8 ≠ 255 ∧ (s.toneFreq.getLsbD 31 = false ∨ s.toneFreq.extractLsb' 0 31 = 0)
    let ceilOk := s.ampCeiling.toNat ≤ (if s.ctrl.getLsbD 0 then 8388606 else 2147483646)
    let whole := ∃ (neg : Bool) (mag : Nat), F32.flt s.toneFreq = .fin neg mag ∧ fs * 2 ^ 149 ∣ s.tableSize.toNat * mag
    (¬ sizeOk → checkSynthInputs fs s = .error { s with
      ctl := .fault, cause := .badTableSize, faultInfo := s.tableSize, valid := false }) ∧
    (sizeOk → ¬ toneOk → checkSynthInputs fs s = .error { s with
      ctl := .fault, cause := .badTone, faultInfo := s.toneFreq, valid := false }) ∧
    (sizeOk → toneOk → ¬ ceilOk → checkSynthInputs fs s = .error { s with
      ctl := .fault, cause := .badCeiling, faultInfo := s.ampCeiling, valid := false }) ∧
    (sizeOk → toneOk → ceilOk → ¬ whole → checkSynthInputs fs s = .error { s with
      ctl := .fault, cause := .notWhole, faultInfo := 0, valid := false }) ∧
    (sizeOk → toneOk → ceilOk → whole → checkSynthInputs fs s = .ok s)) ∧
  (∀ (s a b : State) (fs fbck : Nat), s.ctl = .busy → s.busyLeft = 1 → rateTable s.rateSel = some (fs, fbck) →
    baseClkValid s.baseClk = true → computeDivA (F32.flt s.baseClk) fbck { s with busyLeft := 0 } = .ok a →
    computeDivB (F32.flt s.baseClk) fs a = .ok b →
    (∀ t, checkSynthInputs fs b = .error t → s.countdown = t) ∧
    (∀ t, checkSynthInputs fs b = .ok b → synth fs b = .error t → s.countdown = t))

/-- SYNTH (41_synthesizer.md R150, R155, R156): where it succeeds, every entry below N is the rounded sample, within the
ceiling, and nothing else changes; where it fails, it raises SYNTH_RANGE at the lowest failing index, and the entries
below it hold their samples. (A NaN that an overflowing intermediate makes fails too, at i = 0 or A = 0 as well: the
model's reading, R155 followed over the corner cases of R150 and R158, log entry 22, DEDUCED.) The second part is the
PREPARE completion that succeeds (44_transmitter.md R239, 40_divisor.md R135, 42_encoder.md R176): with a legal rate and
BASE_CLK, two accepted divisors, the checks passed and SYNTH's table, it ends in READY with VALID = 1, DIV_A and DIV_B =
256·INT + FRAC, SAMPLE from SYNTH and WORD its encoding below N, and nothing else changes. -/
def Obligations.SynthesisResult : Prop :=
  (∀ (s : State) (fs : Nat), s.sample.wf = true →
    let value := fun i => sampleValue s.params.cubicSign (angleStep (F32.flt s.toneFreq) (F32.ofNat fs))
      (F32.ofInt s.amplitude.toInt) i
    let good := fun i => (value i).isFinite = true ∧ (value i).roundHalfAway.natAbs ≤ s.ampCeiling.toNat
    (∀ t, synth fs s = .ok t →
      t = { s with sample := t.sample } ∧ t.sample.wf = true ∧
      (∀ i, i < s.tableSize.toNat → good i ∧ t.sample.read i = BitVec.ofInt 32 (value i).roundHalfAway) ∧
      (∀ i, s.tableSize.toNat ≤ i → t.sample.read i = s.sample.read i)) ∧
    (∀ t, synth fs s = .error t →
      ∃ i, i < s.tableSize.toNat ∧ ¬ good i ∧ (∀ k, k < i → good k) ∧
        t = { s with
          sample := t.sample, ctl := .fault, cause := .synthRange, faultInfo := BitVec.ofNat 32 i, valid := false } ∧
        (∀ k, k < i → t.sample.read k = BitVec.ofInt 32 (value k).roundHalfAway))) ∧
  (∀ (s u : State) (fs fbck intA fracA intB fracB : Nat), s.ctl = .busy → s.busyLeft = 1 → s.word.wf = true →
    rateTable s.rateSel = some (fs, fbck) → baseClkValid s.baseClk = true →
    computeDivisor (F32.flt s.baseClk) (F32.ofNat 4) (F32.ofNat fbck) = .ok intA fracA →
    computeDivisor (F32.flt s.baseClk) (F32.ofNat 2) (F32.ofNat fs) = .ok intB fracB →
    let divided : State := { s with
      busyLeft := 0, divA := BitVec.ofNat 24 (256 * intA + fracA), divB := BitVec.ofNat 24 (256 * intB + fracB) }
    checkSynthInputs fs divided = .ok divided → synth fs divided = .ok u →
    ∃ w : Table,
      s.countdown = { divided with sample := u.sample, word := w, valid := true, ctl := .ready } ∧ w.wf = true ∧
      (∀ i, i < s.tableSize.toNat → w.read i = encodeSample (u.sample.read i) (s.ctrl.getLsbD 0)) ∧
      (∀ i, s.tableSize.toNat ≤ i → w.read i = s.word.read i))

/-- SAMPLE[0] = 0 in every table that SYNTH completes (41_synthesizer.md R158). Where 2π ⊗ F overflows there is no table: the
model raises SYNTH_RANGE at index 0 (log entry 22, DEDUCED). -/
def Obligations.FirstSampleIsZero : Prop :=
  ∀ (s t : State) (fs : Nat), s.sample.wf = true → 1 ≤ s.tableSize.toNat → synth fs s = .ok t → t.sample.read 0 = 0

/-- PREPARE completion depends on the frozen configuration alone (44_transmitter.md R239, 41_synthesizer.md R157): two states
that agree on it reach the same STATE with the same divisors, and where it succeeds the same tables, and where it faults the
same cause and information. -/
def Obligations.PrepareDependsOnConfigurationOnly : Prop :=
  ∀ s s' : State, s.SameConfig s' → s.sample.wf = true → s'.sample.wf = true → s.word.wf = true → s'.word.wf = true →
    (completePrepare s).ctl = (completePrepare s').ctl ∧
    (completePrepare s).valid = (completePrepare s').valid ∧
    (completePrepare s).divA = (completePrepare s').divA ∧ (completePrepare s).divB = (completePrepare s').divB ∧
    ((completePrepare s).ctl = .fault → (completePrepare s).cause = (completePrepare s').cause ∧
      (completePrepare s).faultInfo = (completePrepare s').faultInfo) ∧
    ((completePrepare s).valid = true → ∀ i, i < s.tableSize.toNat →
      (completePrepare s).sample.read i = (completePrepare s').sample.read i ∧
      (completePrepare s).word.read i = (completePrepare s').word.read i)

/-! ### Reset -/

/-- R66: every value of the reset table. (SAMPLE and WORD are unspecified there; the model lists nothing, log entry 6.) -/
def Obligations.ResetValues : Prop :=
  let s := State.reset
  s.ctl = .idle ∧
  s.seqA.pc = 0 ∧ s.seqA.dly = 0 ∧ s.seqA.run = false ∧ s.seqB.pc = 0 ∧ s.seqB.dly = 0 ∧ s.seqB.run = false ∧
  s.j = 0 ∧ s.settleCnt = 0 ∧ s.busyLeft = 0 ∧
  s.ign = false ∧ s.unf = false ∧ s.valid = false ∧ s.cause = .none ∧
  s.ctrl = 0 ∧ s.baseClk = 0 ∧ s.toneFreq = 0 ∧ s.amplitude = 0 ∧ s.ampCeiling = 0 ∧ s.tableSize = 0 ∧
  s.faultInfo = 0 ∧ s.divA = 0 ∧ s.divB = 0 ∧ s.tblIndex = 0 ∧ s.encIn = 0 ∧
  s.txq = [] ∧ s.seqA.acc = 0 ∧ s.seqB.acc = 0 ∧ s.osr = 0 ∧ s.osrCnt = 32 ∧
  s.data = false ∧ s.bck = true ∧ s.lrck = false

/-- R290: with `rst` asserted, a clock edge gives every piece of state its reset value, from every state, and a host access
has no step. The parameters, the ROMs, the level of `rst`, the outside's schedule and the model's draws are not the
block's state of R66 and stay. -/
def Obligations.ResetFromAnyState : Prop :=
  ∀ s : State, s.rst = true →
    (s.edgeNext → step s = .next { State.reset with
      params := s.params, romA := s.romA, romB := s.romB, rst := true, host := s.host.tail,
      latencyDraw := s.latencyDraw, latencyIndex := s.latencyIndex }) ∧
    (∀ bits offset w rest, s.host = .read bits offset :: rest ∨ s.host = .write bits offset w :: rest →
      step s = .refused .accessInReset)

/-! ### Invariants -/

/-- The invariant holds at reset. (The parameters at reset are free values; the statement holds for each of them.) -/
def Obligations.InvHoldsAtReset : Prop := State.reset.Inv

/-- Every step keeps the invariant, from every state that has it (44_transmitter.md R230, R244; 43_sequencers.md R191, R206;
20_memory.md R78, R85; 10_state.md R35 to R37, R47, R48). -/
def Obligations.StepKeepsInv : Prop :=
  ∀ s t : State, s.Inv → step s = .next t → t.Inv

/-- From every state of the invariant, every admitted event has a step that answers a next state: no fault and no refusal
(70_reset_and_hazards.md R301, R302). -/
def Obligations.AdmittedStepAnswers : Prop :=
  ∀ s : State, s.Inv → s.nextEventAdmitted = true → ∃ t : State, step s = .next t

/-- While a PREPARE result stands, every WORD entry encodes its SAMPLE entry and every sample is within the legal ceiling
(10_state.md R56, R57; 42_encoder.md R176): every step keeps this, from every state of the invariant. -/
def Obligations.StepKeepsTablesCoherent : Prop :=
  ∀ s t : State, s.Inv → s.TablesCoherent → step s = .next t → t.TablesCoherent

/-- The shift buffer holds only bits not yet shifted out (in particular 0 when it is empty), and every SHIFT1 of Program A
finds a bit (43_sequencers.md R196, R197): every step keeps both, from every state of the invariant. -/
def Obligations.StepKeepsBufferAndPhase : Prop :=
  ∀ s t : State, s.Inv → s.BufferZeroFilled → s.ProgramPhase → step s = .next t → t.BufferZeroFilled ∧ t.ProgramPhase
end

