-- ==== Sys2Proof/Laws/Binary32.lean ====
section
/-! SUPPORT. Laws/Binary32.lean: rounding is exact on representable magnitudes, and every operation answers a representable
value. -/
namespace Sys2Proof.Machine.F32

/-- The magnitude of a finite value is representable; NaN and the infinities are. -/
def WellFormed : F32 → Prop
  | .nan | .inf _ => True
  | .fin _ m => representable m

theorem unit_eq : unit = 2 ^ 149 := by unfold unit; rfl

@[simp] theorem unit_pos : 0 < unit := unit_eq ▸ Nat.two_pow_pos _

theorem overflowMag_eq : overflowMag = 2 ^ (128 + 149) := by
  rw [overflowMag, unit_eq, Nat.pow_add]

theorem overflowMag_pos : 0 < overflowMag := overflowMag_eq ▸ Nat.two_pow_pos _

/-! ### Exact rounding -/

theorem divHalfEven_mul (k den : Nat) (hd : 0 < den) : divHalfEven (k * den) den = k := by
  simp [divHalfEven, Nat.mul_div_cancel _ hd, hd]

/-- A quotient that is exact and representable rounds to itself. -/
theorem roundMag_exact {m den : Nat} (hd : 0 < den) (h : representable m) : roundMag (m * den) den = m := by
  have hk : m = m / 2 ^ (m.log2 - 23) * 2 ^ (m.log2 - 23) :=
    (Nat.div_mul_cancel (Nat.dvd_of_mod_eq_zero h.1)).symm
  have hnum : m * den = m / 2 ^ (m.log2 - 23) * (den * 2 ^ (m.log2 - 23)) := by
    conv => lhs; rw [hk]
    rw [Nat.mul_assoc, Nat.mul_comm (2 ^ _) den]
  have hpos : 0 < den * 2 ^ (m.log2 - 23) := Nat.mul_pos hd (Nat.two_pow_pos _)
  simp only [roundMag, Nat.mul_div_cancel m hd]
  rw [hnum, divHalfEven_mul _ _ hpos]
  exact hk.symm

theorem round_exact {m den : Nat} (neg : Bool) (hd : 0 < den) (h : representable m) :
    round neg (m * den) den = .fin neg m := by
  simp only [round, roundMag_exact hd h]
  rw [if_neg (by have := h.2; omega)]

/-- A magnitude that is a multiple of 2^s and below 2^(s+24) is representable, if it does not overflow. -/
theorem representable_of_dvd {m s : Nat} (hd : 2 ^ s ∣ m) (hlt : m < 2 ^ (s + 24)) (ho : m < overflowMag) :
    representable m := by
  refine ⟨?_, ho⟩
  by_cases hm : m = 0
  · simp [hm]
  · have hl : m.log2 < s + 24 := (Nat.log2_lt hm).2 hlt
    exact Nat.mod_eq_zero_of_dvd (Nat.dvd_trans (Nat.pow_dvd_pow 2 (by omega)) hd)

@[simp] theorem representable_zero : representable 0 :=
  ⟨by simp, overflowMag_pos⟩

/-- What a representable magnitude is: a multiple of 2^s below 2^(s+24). -/
theorem representable_iff {m : Nat} :
    representable m ↔ (∃ s, 2 ^ s ∣ m ∧ m < 2 ^ (s + 24)) ∧ m < overflowMag := by
  constructor
  · intro h
    refine ⟨⟨m.log2 - 23, Nat.dvd_of_mod_eq_zero h.1, ?_⟩, h.2⟩
    by_cases hm : m = 0
    · subst hm
      exact Nat.two_pow_pos _
    · exact (Nat.log2_lt hm).1 (by omega)
  · rintro ⟨⟨s, hd, hlt⟩, ho⟩
    exact representable_of_dvd hd hlt ho

/-! ### Rounding answers representable values -/

theorem divHalfEven_le (num den : Nat) : divHalfEven num den ≤ num / den + 1 := by
  unfold divHalfEven
  simp only
  split
  · omega
  · split
    · omega
    · split <;> omega

theorem round_wellFormed (neg : Bool) (num den : Nat) : (round neg num den).WellFormed := by
  unfold round
  simp only
  split
  · trivial
  · rename_i ho
    simp only [WellFormed]
    have ho' : roundMag num den < overflowMag := by omega
    generalize hs : (num / den).log2 - 23 = s
    have hm : roundMag num den = divHalfEven num (den * 2 ^ s) * 2 ^ s := by simp [roundMag, hs]
    have hq : num / den < 2 ^ (s + 24) := by
      by_cases h0 : num / den = 0
      · rw [h0]
        exact Nat.two_pow_pos _
      · exact (Nat.log2_lt h0).1 (by omega)
    have hk : divHalfEven num (den * 2 ^ s) ≤ 2 ^ 24 := by
      have h1 := divHalfEven_le num (den * 2 ^ s)
      have h2 : num / (den * 2 ^ s) < 2 ^ 24 := by
        rw [← Nat.div_div_eq_div_mul]
        exact Nat.div_lt_of_lt_mul (by rw [← Nat.pow_add]; exact hq)
      omega
    rcases Nat.lt_or_eq_of_le hk with hlt | heq
    · exact representable_of_dvd (s := s) (by rw [hm]; exact Nat.dvd_mul_left _ _)
        (by rw [hm, Nat.pow_add, Nat.mul_comm]; exact Nat.mul_lt_mul_of_pos_left hlt (Nat.two_pow_pos _)) ho'
    · refine representable_of_dvd (s := s + 24) ?_ ?_ ho'
      · exact ⟨1, by rw [Nat.mul_one, hm, heq, ← Nat.pow_add, Nat.add_comm 24 s]⟩
      · rw [hm, heq, ← Nat.pow_add]
        exact Nat.pow_lt_pow_right (by omega) (by omega)

theorem flt_wellFormed (u : Word) : (flt u).WellFormed := by
  unfold flt
  simp only
  have hf := (u.extractLsb' 0 23).isLt
  have he := (u.extractLsb' 23 8).isLt
  split
  · split <;> trivial
  · split
    · refine representable_of_dvd (s := 0) (by simp) ?_ ?_
      · exact Nat.lt_trans hf (Nat.pow_lt_pow_right (by omega) (by omega))
      · rw [overflowMag_eq]
        exact Nat.lt_trans hf (Nat.pow_lt_pow_right (by omega) (by omega))
    · rename_i h255 h0
      have hb : 2 ^ 23 + (u.extractLsb' 0 23).toNat < 2 ^ 24 := by omega
      refine representable_of_dvd (s := (u.extractLsb' 23 8).toNat - 1) (Nat.dvd_mul_left _ _) ?_ ?_
      · rw [Nat.pow_add, Nat.mul_comm]
        exact Nat.mul_lt_mul_of_pos_left hb (Nat.two_pow_pos _)
      · refine Nat.lt_of_lt_of_le (Nat.mul_lt_mul_of_pos_right hb (Nat.two_pow_pos _)) ?_
        rw [← Nat.pow_add, overflowMag_eq]
        exact Nat.pow_le_pow_right (by omega) (by omega)

theorem div_wellFormed (a b : F32) : (div a b).WellFormed := by
  cases a <;> cases b <;> simp only [div] <;> first
    | trivial
    | exact representable_zero
    | (split
       · split <;> trivial
       · exact round_wellFormed _ _ _)

theorem mul_wellFormed (a b : F32) : (mul a b).WellFormed := by
  cases a <;> cases b <;> simp only [mul] <;> first
    | trivial
    | exact round_wellFormed _ _ _
    | (split <;> trivial)

theorem add_wellFormed (a b : F32) : (add a b).WellFormed := by
  cases a <;> cases b <;> simp only [add] <;> first
    | trivial
    | (split <;> first | trivial | exact representable_zero | exact round_wellFormed _ _ _)

/-- A natural number below 2^24 converts exactly. -/
theorem ofNat_exact {n : Nat} (h : n < 2 ^ 24) : ofNat n = .fin false (n * unit) := by
  have hr : representable (n * unit) := by
    refine representable_of_dvd (s := 149) (unit_eq ▸ Nat.dvd_mul_left _ _) ?_ ?_
    · rw [unit_eq, Nat.pow_add, Nat.mul_comm]
      exact Nat.mul_lt_mul_of_pos_left h (Nat.two_pow_pos _)
    · exact Nat.mul_lt_mul_of_pos_right (Nat.lt_trans h (Nat.pow_lt_pow_right (by omega) (by omega))) unit_pos
  have := round_exact false (den := 1) (by omega) hr
  have hneg : decide ((n : Int) < 0) = false := by simp
  simpa [ofNat, ofInt, hneg] using this

@[simp] theorem signed_false (m : Nat) : signed false m = (m : Int) := rfl
@[simp] theorem signed_true (m : Nat) : signed true m = -(m : Int) := rfl
@[simp] theorem natAbs_signed (n : Bool) (m : Nat) : (signed n m).natAbs = m := by cases n <;> simp

/-- The sum of two finite values, by its exact signed value. -/
theorem add_fin (n m : Bool) (a b : Nat) (z : Int) (hz : signed n a + signed m b = z) :
    add (.fin n a) (.fin m b) = if z = 0 then .fin (n && m) 0 else round (decide (z < 0)) z.natAbs 1 := by
  subst hz
  rfl

/-- Truncation of a value that is not negative. -/
theorem trunc_toNat (m : Nat) : (trunc (.fin false m)).toNat = m / unit :=
  Int.toNat_natCast (m / unit)

end Sys2Proof.Machine.F32
end

