-- ==== Sys2Proof/Laws/PerInstr.lean ====
section
/-! SUPPORT. Laws/PerInstr.lean: statements made of each instruction as syntax, one lemma per constructor. -/
namespace Sys2Proof.Laws.EncodedLength

/-- An instruction is well formed in its own format, and its encoding has that format's fixed length: four bytes for a
host command, one for a micro-instruction (30_encoding.md R100). -/
def Statement (i : Instr) : Prop :=
  i.wf i.format = true ∧ (encode i).length = (match i.format with | .hcmd => 4 | .uop => 1)

theorem nop : Statement .nop := ⟨rfl, rfl⟩
theorem prepare : Statement .prepare := ⟨rfl, rfl⟩
theorem start : Statement .start := ⟨rfl, rfl⟩
theorem setclk (side : Bool) (delay : BitVec 2) : Statement (.setclk side delay) := ⟨rfl, rfl⟩
theorem refill (side : Bool) (delay : BitVec 2) : Statement (.refill side delay) := ⟨rfl, rfl⟩
theorem shift1 (side : Bool) (delay : BitVec 2) : Statement (.shift1 side delay) := ⟨rfl, rfl⟩

end Sys2Proof.Laws.EncodedLength
end

