-- ==== Sys2Proof/Laws/State.lean ====
section
/-! SUPPORT. Laws/State.lean: what each named update of the state leaves in each field. -/
namespace Sys2Proof.Machine

/-! ### setIgn -/
section setIgn
variable (s : State)

@[simp] theorem setIgn_params : s.setIgn.params = s.params := rfl
@[simp] theorem setIgn_romA : s.setIgn.romA = s.romA := rfl
@[simp] theorem setIgn_romB : s.setIgn.romB = s.romB := rfl
@[simp] theorem setIgn_ctl : s.setIgn.ctl = s.ctl := rfl
@[simp] theorem setIgn_cause : s.setIgn.cause = s.cause := rfl
@[simp] theorem setIgn_ign : s.setIgn.ign = true := rfl
@[simp] theorem setIgn_unf : s.setIgn.unf = s.unf := rfl
@[simp] theorem setIgn_valid : s.setIgn.valid = s.valid := rfl
@[simp] theorem setIgn_faultInfo : s.setIgn.faultInfo = s.faultInfo := rfl
@[simp] theorem setIgn_settleCnt : s.setIgn.settleCnt = s.settleCnt := rfl
@[simp] theorem setIgn_busyLeft : s.setIgn.busyLeft = s.busyLeft := rfl
@[simp] theorem setIgn_ctrl : s.setIgn.ctrl = s.ctrl := rfl
@[simp] theorem setIgn_baseClk : s.setIgn.baseClk = s.baseClk := rfl
@[simp] theorem setIgn_toneFreq : s.setIgn.toneFreq = s.toneFreq := rfl
@[simp] theorem setIgn_amplitude : s.setIgn.amplitude = s.amplitude := rfl
@[simp] theorem setIgn_ampCeiling : s.setIgn.ampCeiling = s.ampCeiling := rfl
@[simp] theorem setIgn_tableSize : s.setIgn.tableSize = s.tableSize := rfl
@[simp] theorem setIgn_divA : s.setIgn.divA = s.divA := rfl
@[simp] theorem setIgn_divB : s.setIgn.divB = s.divB := rfl
@[simp] theorem setIgn_tblIndex : s.setIgn.tblIndex = s.tblIndex := rfl
@[simp] theorem setIgn_encIn : s.setIgn.encIn = s.encIn := rfl
@[simp] theorem setIgn_sample : s.setIgn.sample = s.sample := rfl
@[simp] theorem setIgn_word : s.setIgn.word = s.word := rfl
@[simp] theorem setIgn_txq : s.setIgn.txq = s.txq := rfl
@[simp] theorem setIgn_j : s.setIgn.j = s.j := rfl
@[simp] theorem setIgn_seqA : s.setIgn.seqA = s.seqA := rfl
@[simp] theorem setIgn_seqB : s.setIgn.seqB = s.seqB := rfl
@[simp] theorem setIgn_osr : s.setIgn.osr = s.osr := rfl
@[simp] theorem setIgn_osrCnt : s.setIgn.osrCnt = s.osrCnt := rfl
@[simp] theorem setIgn_data : s.setIgn.data = s.data := rfl
@[simp] theorem setIgn_bck : s.setIgn.bck = s.bck := rfl
@[simp] theorem setIgn_lrck : s.setIgn.lrck = s.lrck := rfl
@[simp] theorem setIgn_rst : s.setIgn.rst = s.rst := rfl
@[simp] theorem setIgn_host : s.setIgn.host = s.host := rfl
@[simp] theorem setIgn_readData : s.setIgn.readData = s.readData := rfl
@[simp] theorem setIgn_active : s.setIgn.active = s.active := rfl
@[simp] theorem setIgn_latencyDraw : s.setIgn.latencyDraw = s.latencyDraw := rfl
@[simp] theorem setIgn_latencyIndex : s.setIgn.latencyIndex = s.latencyIndex := rfl

end setIgn

/-! ### setUnf -/
section setUnf
variable (s : State)

@[simp] theorem setUnf_params : s.setUnf.params = s.params := rfl
@[simp] theorem setUnf_romA : s.setUnf.romA = s.romA := rfl
@[simp] theorem setUnf_romB : s.setUnf.romB = s.romB := rfl
@[simp] theorem setUnf_ctl : s.setUnf.ctl = s.ctl := rfl
@[simp] theorem setUnf_cause : s.setUnf.cause = s.cause := rfl
@[simp] theorem setUnf_ign : s.setUnf.ign = s.ign := rfl
@[simp] theorem setUnf_unf : s.setUnf.unf = true := rfl
@[simp] theorem setUnf_valid : s.setUnf.valid = s.valid := rfl
@[simp] theorem setUnf_faultInfo : s.setUnf.faultInfo = s.faultInfo := rfl
@[simp] theorem setUnf_settleCnt : s.setUnf.settleCnt = s.settleCnt := rfl
@[simp] theorem setUnf_busyLeft : s.setUnf.busyLeft = s.busyLeft := rfl
@[simp] theorem setUnf_ctrl : s.setUnf.ctrl = s.ctrl := rfl
@[simp] theorem setUnf_baseClk : s.setUnf.baseClk = s.baseClk := rfl
@[simp] theorem setUnf_toneFreq : s.setUnf.toneFreq = s.toneFreq := rfl
@[simp] theorem setUnf_amplitude : s.setUnf.amplitude = s.amplitude := rfl
@[simp] theorem setUnf_ampCeiling : s.setUnf.ampCeiling = s.ampCeiling := rfl
@[simp] theorem setUnf_tableSize : s.setUnf.tableSize = s.tableSize := rfl
@[simp] theorem setUnf_divA : s.setUnf.divA = s.divA := rfl
@[simp] theorem setUnf_divB : s.setUnf.divB = s.divB := rfl
@[simp] theorem setUnf_tblIndex : s.setUnf.tblIndex = s.tblIndex := rfl
@[simp] theorem setUnf_encIn : s.setUnf.encIn = s.encIn := rfl
@[simp] theorem setUnf_sample : s.setUnf.sample = s.sample := rfl
@[simp] theorem setUnf_word : s.setUnf.word = s.word := rfl
@[simp] theorem setUnf_txq : s.setUnf.txq = s.txq := rfl
@[simp] theorem setUnf_j : s.setUnf.j = s.j := rfl
@[simp] theorem setUnf_seqA : s.setUnf.seqA = s.seqA := rfl
@[simp] theorem setUnf_seqB : s.setUnf.seqB = s.seqB := rfl
@[simp] theorem setUnf_osr : s.setUnf.osr = s.osr := rfl
@[simp] theorem setUnf_osrCnt : s.setUnf.osrCnt = s.osrCnt := rfl
@[simp] theorem setUnf_data : s.setUnf.data = s.data := rfl
@[simp] theorem setUnf_bck : s.setUnf.bck = s.bck := rfl
@[simp] theorem setUnf_lrck : s.setUnf.lrck = s.lrck := rfl
@[simp] theorem setUnf_rst : s.setUnf.rst = s.rst := rfl
@[simp] theorem setUnf_host : s.setUnf.host = s.host := rfl
@[simp] theorem setUnf_readData : s.setUnf.readData = s.readData := rfl
@[simp] theorem setUnf_active : s.setUnf.active = s.active := rfl
@[simp] theorem setUnf_latencyDraw : s.setUnf.latencyDraw = s.latencyDraw := rfl
@[simp] theorem setUnf_latencyIndex : s.setUnf.latencyIndex = s.latencyIndex := rfl

end setUnf

/-! ### raiseFault -/
section raiseFault
variable (s : State) (c : Cause) (info : Word)

@[simp] theorem raiseFault_params : (s.raiseFault c info).params = s.params := rfl
@[simp] theorem raiseFault_romA : (s.raiseFault c info).romA = s.romA := rfl
@[simp] theorem raiseFault_romB : (s.raiseFault c info).romB = s.romB := rfl
@[simp] theorem raiseFault_ctl : (s.raiseFault c info).ctl = .fault := rfl
@[simp] theorem raiseFault_cause : (s.raiseFault c info).cause = c := rfl
@[simp] theorem raiseFault_ign : (s.raiseFault c info).ign = s.ign := rfl
@[simp] theorem raiseFault_unf : (s.raiseFault c info).unf = s.unf := rfl
@[simp] theorem raiseFault_valid : (s.raiseFault c info).valid = false := rfl
@[simp] theorem raiseFault_faultInfo : (s.raiseFault c info).faultInfo = info := rfl
@[simp] theorem raiseFault_settleCnt : (s.raiseFault c info).settleCnt = s.settleCnt := rfl
@[simp] theorem raiseFault_busyLeft : (s.raiseFault c info).busyLeft = s.busyLeft := rfl
@[simp] theorem raiseFault_ctrl : (s.raiseFault c info).ctrl = s.ctrl := rfl
@[simp] theorem raiseFault_baseClk : (s.raiseFault c info).baseClk = s.baseClk := rfl
@[simp] theorem raiseFault_toneFreq : (s.raiseFault c info).toneFreq = s.toneFreq := rfl
@[simp] theorem raiseFault_amplitude : (s.raiseFault c info).amplitude = s.amplitude := rfl
@[simp] theorem raiseFault_ampCeiling : (s.raiseFault c info).ampCeiling = s.ampCeiling := rfl
@[simp] theorem raiseFault_tableSize : (s.raiseFault c info).tableSize = s.tableSize := rfl
@[simp] theorem raiseFault_divA : (s.raiseFault c info).divA = s.divA := rfl
@[simp] theorem raiseFault_divB : (s.raiseFault c info).divB = s.divB := rfl
@[simp] theorem raiseFault_tblIndex : (s.raiseFault c info).tblIndex = s.tblIndex := rfl
@[simp] theorem raiseFault_encIn : (s.raiseFault c info).encIn = s.encIn := rfl
@[simp] theorem raiseFault_sample : (s.raiseFault c info).sample = s.sample := rfl
@[simp] theorem raiseFault_word : (s.raiseFault c info).word = s.word := rfl
@[simp] theorem raiseFault_txq : (s.raiseFault c info).txq = s.txq := rfl
@[simp] theorem raiseFault_j : (s.raiseFault c info).j = s.j := rfl
@[simp] theorem raiseFault_seqA : (s.raiseFault c info).seqA = s.seqA := rfl
@[simp] theorem raiseFault_seqB : (s.raiseFault c info).seqB = s.seqB := rfl
@[simp] theorem raiseFault_osr : (s.raiseFault c info).osr = s.osr := rfl
@[simp] theorem raiseFault_osrCnt : (s.raiseFault c info).osrCnt = s.osrCnt := rfl
@[simp] theorem raiseFault_data : (s.raiseFault c info).data = s.data := rfl
@[simp] theorem raiseFault_bck : (s.raiseFault c info).bck = s.bck := rfl
@[simp] theorem raiseFault_lrck : (s.raiseFault c info).lrck = s.lrck := rfl
@[simp] theorem raiseFault_rst : (s.raiseFault c info).rst = s.rst := rfl
@[simp] theorem raiseFault_host : (s.raiseFault c info).host = s.host := rfl
@[simp] theorem raiseFault_readData : (s.raiseFault c info).readData = s.readData := rfl
@[simp] theorem raiseFault_active : (s.raiseFault c info).active = s.active := rfl
@[simp] theorem raiseFault_latencyDraw : (s.raiseFault c info).latencyDraw = s.latencyDraw := rfl
@[simp] theorem raiseFault_latencyIndex : (s.raiseFault c info).latencyIndex = s.latencyIndex := rfl

end raiseFault

/-! ### driveBck -/
section driveBck
variable (s : State) (b : Bool)

@[simp] theorem driveBck_params : (s.driveBck b).params = s.params := rfl
@[simp] theorem driveBck_romA : (s.driveBck b).romA = s.romA := rfl
@[simp] theorem driveBck_romB : (s.driveBck b).romB = s.romB := rfl
@[simp] theorem driveBck_ctl : (s.driveBck b).ctl = s.ctl := rfl
@[simp] theorem driveBck_cause : (s.driveBck b).cause = s.cause := rfl
@[simp] theorem driveBck_ign : (s.driveBck b).ign = s.ign := rfl
@[simp] theorem driveBck_unf : (s.driveBck b).unf = s.unf := rfl
@[simp] theorem driveBck_valid : (s.driveBck b).valid = s.valid := rfl
@[simp] theorem driveBck_faultInfo : (s.driveBck b).faultInfo = s.faultInfo := rfl
@[simp] theorem driveBck_settleCnt : (s.driveBck b).settleCnt = s.settleCnt := rfl
@[simp] theorem driveBck_busyLeft : (s.driveBck b).busyLeft = s.busyLeft := rfl
@[simp] theorem driveBck_ctrl : (s.driveBck b).ctrl = s.ctrl := rfl
@[simp] theorem driveBck_baseClk : (s.driveBck b).baseClk = s.baseClk := rfl
@[simp] theorem driveBck_toneFreq : (s.driveBck b).toneFreq = s.toneFreq := rfl
@[simp] theorem driveBck_amplitude : (s.driveBck b).amplitude = s.amplitude := rfl
@[simp] theorem driveBck_ampCeiling : (s.driveBck b).ampCeiling = s.ampCeiling := rfl
@[simp] theorem driveBck_tableSize : (s.driveBck b).tableSize = s.tableSize := rfl
@[simp] theorem driveBck_divA : (s.driveBck b).divA = s.divA := rfl
@[simp] theorem driveBck_divB : (s.driveBck b).divB = s.divB := rfl
@[simp] theorem driveBck_tblIndex : (s.driveBck b).tblIndex = s.tblIndex := rfl
@[simp] theorem driveBck_encIn : (s.driveBck b).encIn = s.encIn := rfl
@[simp] theorem driveBck_sample : (s.driveBck b).sample = s.sample := rfl
@[simp] theorem driveBck_word : (s.driveBck b).word = s.word := rfl
@[simp] theorem driveBck_txq : (s.driveBck b).txq = s.txq := rfl
@[simp] theorem driveBck_j : (s.driveBck b).j = s.j := rfl
@[simp] theorem driveBck_seqA : (s.driveBck b).seqA = s.seqA := rfl
@[simp] theorem driveBck_seqB : (s.driveBck b).seqB = s.seqB := rfl
@[simp] theorem driveBck_osr : (s.driveBck b).osr = s.osr := rfl
@[simp] theorem driveBck_osrCnt : (s.driveBck b).osrCnt = s.osrCnt := rfl
@[simp] theorem driveBck_data : (s.driveBck b).data = s.data := rfl
@[simp] theorem driveBck_bck : (s.driveBck b).bck = b := rfl
@[simp] theorem driveBck_lrck : (s.driveBck b).lrck = s.lrck := rfl
@[simp] theorem driveBck_rst : (s.driveBck b).rst = s.rst := rfl
@[simp] theorem driveBck_host : (s.driveBck b).host = s.host := rfl
@[simp] theorem driveBck_readData : (s.driveBck b).readData = s.readData := rfl
@[simp] theorem driveBck_active : (s.driveBck b).active = s.active := rfl
@[simp] theorem driveBck_latencyDraw : (s.driveBck b).latencyDraw = s.latencyDraw := rfl
@[simp] theorem driveBck_latencyIndex : (s.driveBck b).latencyIndex = s.latencyIndex := rfl

end driveBck

/-! ### driveLrck -/
section driveLrck
variable (s : State) (b : Bool)

@[simp] theorem driveLrck_params : (s.driveLrck b).params = s.params := rfl
@[simp] theorem driveLrck_romA : (s.driveLrck b).romA = s.romA := rfl
@[simp] theorem driveLrck_romB : (s.driveLrck b).romB = s.romB := rfl
@[simp] theorem driveLrck_ctl : (s.driveLrck b).ctl = s.ctl := rfl
@[simp] theorem driveLrck_cause : (s.driveLrck b).cause = s.cause := rfl
@[simp] theorem driveLrck_ign : (s.driveLrck b).ign = s.ign := rfl
@[simp] theorem driveLrck_unf : (s.driveLrck b).unf = s.unf := rfl
@[simp] theorem driveLrck_valid : (s.driveLrck b).valid = s.valid := rfl
@[simp] theorem driveLrck_faultInfo : (s.driveLrck b).faultInfo = s.faultInfo := rfl
@[simp] theorem driveLrck_settleCnt : (s.driveLrck b).settleCnt = s.settleCnt := rfl
@[simp] theorem driveLrck_busyLeft : (s.driveLrck b).busyLeft = s.busyLeft := rfl
@[simp] theorem driveLrck_ctrl : (s.driveLrck b).ctrl = s.ctrl := rfl
@[simp] theorem driveLrck_baseClk : (s.driveLrck b).baseClk = s.baseClk := rfl
@[simp] theorem driveLrck_toneFreq : (s.driveLrck b).toneFreq = s.toneFreq := rfl
@[simp] theorem driveLrck_amplitude : (s.driveLrck b).amplitude = s.amplitude := rfl
@[simp] theorem driveLrck_ampCeiling : (s.driveLrck b).ampCeiling = s.ampCeiling := rfl
@[simp] theorem driveLrck_tableSize : (s.driveLrck b).tableSize = s.tableSize := rfl
@[simp] theorem driveLrck_divA : (s.driveLrck b).divA = s.divA := rfl
@[simp] theorem driveLrck_divB : (s.driveLrck b).divB = s.divB := rfl
@[simp] theorem driveLrck_tblIndex : (s.driveLrck b).tblIndex = s.tblIndex := rfl
@[simp] theorem driveLrck_encIn : (s.driveLrck b).encIn = s.encIn := rfl
@[simp] theorem driveLrck_sample : (s.driveLrck b).sample = s.sample := rfl
@[simp] theorem driveLrck_word : (s.driveLrck b).word = s.word := rfl
@[simp] theorem driveLrck_txq : (s.driveLrck b).txq = s.txq := rfl
@[simp] theorem driveLrck_j : (s.driveLrck b).j = s.j := rfl
@[simp] theorem driveLrck_seqA : (s.driveLrck b).seqA = s.seqA := rfl
@[simp] theorem driveLrck_seqB : (s.driveLrck b).seqB = s.seqB := rfl
@[simp] theorem driveLrck_osr : (s.driveLrck b).osr = s.osr := rfl
@[simp] theorem driveLrck_osrCnt : (s.driveLrck b).osrCnt = s.osrCnt := rfl
@[simp] theorem driveLrck_data : (s.driveLrck b).data = s.data := rfl
@[simp] theorem driveLrck_bck : (s.driveLrck b).bck = s.bck := rfl
@[simp] theorem driveLrck_lrck : (s.driveLrck b).lrck = b := rfl
@[simp] theorem driveLrck_rst : (s.driveLrck b).rst = s.rst := rfl
@[simp] theorem driveLrck_host : (s.driveLrck b).host = s.host := rfl
@[simp] theorem driveLrck_readData : (s.driveLrck b).readData = s.readData := rfl
@[simp] theorem driveLrck_active : (s.driveLrck b).active = s.active := rfl
@[simp] theorem driveLrck_latencyDraw : (s.driveLrck b).latencyDraw = s.latencyDraw := rfl
@[simp] theorem driveLrck_latencyIndex : (s.driveLrck b).latencyIndex = s.latencyIndex := rfl

end driveLrck

/-! ### driveData -/
section driveData
variable (s : State) (b : Bool)

@[simp] theorem driveData_params : (s.driveData b).params = s.params := rfl
@[simp] theorem driveData_romA : (s.driveData b).romA = s.romA := rfl
@[simp] theorem driveData_romB : (s.driveData b).romB = s.romB := rfl
@[simp] theorem driveData_ctl : (s.driveData b).ctl = s.ctl := rfl
@[simp] theorem driveData_cause : (s.driveData b).cause = s.cause := rfl
@[simp] theorem driveData_ign : (s.driveData b).ign = s.ign := rfl
@[simp] theorem driveData_unf : (s.driveData b).unf = s.unf := rfl
@[simp] theorem driveData_valid : (s.driveData b).valid = s.valid := rfl
@[simp] theorem driveData_faultInfo : (s.driveData b).faultInfo = s.faultInfo := rfl
@[simp] theorem driveData_settleCnt : (s.driveData b).settleCnt = s.settleCnt := rfl
@[simp] theorem driveData_busyLeft : (s.driveData b).busyLeft = s.busyLeft := rfl
@[simp] theorem driveData_ctrl : (s.driveData b).ctrl = s.ctrl := rfl
@[simp] theorem driveData_baseClk : (s.driveData b).baseClk = s.baseClk := rfl
@[simp] theorem driveData_toneFreq : (s.driveData b).toneFreq = s.toneFreq := rfl
@[simp] theorem driveData_amplitude : (s.driveData b).amplitude = s.amplitude := rfl
@[simp] theorem driveData_ampCeiling : (s.driveData b).ampCeiling = s.ampCeiling := rfl
@[simp] theorem driveData_tableSize : (s.driveData b).tableSize = s.tableSize := rfl
@[simp] theorem driveData_divA : (s.driveData b).divA = s.divA := rfl
@[simp] theorem driveData_divB : (s.driveData b).divB = s.divB := rfl
@[simp] theorem driveData_tblIndex : (s.driveData b).tblIndex = s.tblIndex := rfl
@[simp] theorem driveData_encIn : (s.driveData b).encIn = s.encIn := rfl
@[simp] theorem driveData_sample : (s.driveData b).sample = s.sample := rfl
@[simp] theorem driveData_word : (s.driveData b).word = s.word := rfl
@[simp] theorem driveData_txq : (s.driveData b).txq = s.txq := rfl
@[simp] theorem driveData_j : (s.driveData b).j = s.j := rfl
@[simp] theorem driveData_seqA : (s.driveData b).seqA = s.seqA := rfl
@[simp] theorem driveData_seqB : (s.driveData b).seqB = s.seqB := rfl
@[simp] theorem driveData_osr : (s.driveData b).osr = s.osr := rfl
@[simp] theorem driveData_osrCnt : (s.driveData b).osrCnt = s.osrCnt := rfl
@[simp] theorem driveData_data : (s.driveData b).data = b := rfl
@[simp] theorem driveData_bck : (s.driveData b).bck = s.bck := rfl
@[simp] theorem driveData_lrck : (s.driveData b).lrck = s.lrck := rfl
@[simp] theorem driveData_rst : (s.driveData b).rst = s.rst := rfl
@[simp] theorem driveData_host : (s.driveData b).host = s.host := rfl
@[simp] theorem driveData_readData : (s.driveData b).readData = s.readData := rfl
@[simp] theorem driveData_active : (s.driveData b).active = s.active := rfl
@[simp] theorem driveData_latencyDraw : (s.driveData b).latencyDraw = s.latencyDraw := rfl
@[simp] theorem driveData_latencyIndex : (s.driveData b).latencyIndex = s.latencyIndex := rfl

end driveData

/-! ### qPush -/
section qPush
variable (s : State) (v : Word)

@[simp] theorem qPush_params : (s.qPush v).params = s.params := rfl
@[simp] theorem qPush_romA : (s.qPush v).romA = s.romA := rfl
@[simp] theorem qPush_romB : (s.qPush v).romB = s.romB := rfl
@[simp] theorem qPush_ctl : (s.qPush v).ctl = s.ctl := rfl
@[simp] theorem qPush_cause : (s.qPush v).cause = s.cause := rfl
@[simp] theorem qPush_ign : (s.qPush v).ign = s.ign := rfl
@[simp] theorem qPush_unf : (s.qPush v).unf = s.unf := rfl
@[simp] theorem qPush_valid : (s.qPush v).valid = s.valid := rfl
@[simp] theorem qPush_faultInfo : (s.qPush v).faultInfo = s.faultInfo := rfl
@[simp] theorem qPush_settleCnt : (s.qPush v).settleCnt = s.settleCnt := rfl
@[simp] theorem qPush_busyLeft : (s.qPush v).busyLeft = s.busyLeft := rfl
@[simp] theorem qPush_ctrl : (s.qPush v).ctrl = s.ctrl := rfl
@[simp] theorem qPush_baseClk : (s.qPush v).baseClk = s.baseClk := rfl
@[simp] theorem qPush_toneFreq : (s.qPush v).toneFreq = s.toneFreq := rfl
@[simp] theorem qPush_amplitude : (s.qPush v).amplitude = s.amplitude := rfl
@[simp] theorem qPush_ampCeiling : (s.qPush v).ampCeiling = s.ampCeiling := rfl
@[simp] theorem qPush_tableSize : (s.qPush v).tableSize = s.tableSize := rfl
@[simp] theorem qPush_divA : (s.qPush v).divA = s.divA := rfl
@[simp] theorem qPush_divB : (s.qPush v).divB = s.divB := rfl
@[simp] theorem qPush_tblIndex : (s.qPush v).tblIndex = s.tblIndex := rfl
@[simp] theorem qPush_encIn : (s.qPush v).encIn = s.encIn := rfl
@[simp] theorem qPush_sample : (s.qPush v).sample = s.sample := rfl
@[simp] theorem qPush_word : (s.qPush v).word = s.word := rfl
@[simp] theorem qPush_txq : (s.qPush v).txq = s.txq ++ [v] := rfl
@[simp] theorem qPush_j : (s.qPush v).j = s.j := rfl
@[simp] theorem qPush_seqA : (s.qPush v).seqA = s.seqA := rfl
@[simp] theorem qPush_seqB : (s.qPush v).seqB = s.seqB := rfl
@[simp] theorem qPush_osr : (s.qPush v).osr = s.osr := rfl
@[simp] theorem qPush_osrCnt : (s.qPush v).osrCnt = s.osrCnt := rfl
@[simp] theorem qPush_data : (s.qPush v).data = s.data := rfl
@[simp] theorem qPush_bck : (s.qPush v).bck = s.bck := rfl
@[simp] theorem qPush_lrck : (s.qPush v).lrck = s.lrck := rfl
@[simp] theorem qPush_rst : (s.qPush v).rst = s.rst := rfl
@[simp] theorem qPush_host : (s.qPush v).host = s.host := rfl
@[simp] theorem qPush_readData : (s.qPush v).readData = s.readData := rfl
@[simp] theorem qPush_active : (s.qPush v).active = s.active := rfl
@[simp] theorem qPush_latencyDraw : (s.qPush v).latencyDraw = s.latencyDraw := rfl
@[simp] theorem qPush_latencyIndex : (s.qPush v).latencyIndex = s.latencyIndex := rfl

end qPush

/-! ### setSeqA -/
section setSeqA
variable (s : State) (q : Sequencer)

@[simp] theorem setSeqA_params : (s.setSeq .A q).params = s.params := rfl
@[simp] theorem setSeqA_romA : (s.setSeq .A q).romA = s.romA := rfl
@[simp] theorem setSeqA_romB : (s.setSeq .A q).romB = s.romB := rfl
@[simp] theorem setSeqA_ctl : (s.setSeq .A q).ctl = s.ctl := rfl
@[simp] theorem setSeqA_cause : (s.setSeq .A q).cause = s.cause := rfl
@[simp] theorem setSeqA_ign : (s.setSeq .A q).ign = s.ign := rfl
@[simp] theorem setSeqA_unf : (s.setSeq .A q).unf = s.unf := rfl
@[simp] theorem setSeqA_valid : (s.setSeq .A q).valid = s.valid := rfl
@[simp] theorem setSeqA_faultInfo : (s.setSeq .A q).faultInfo = s.faultInfo := rfl
@[simp] theorem setSeqA_settleCnt : (s.setSeq .A q).settleCnt = s.settleCnt := rfl
@[simp] theorem setSeqA_busyLeft : (s.setSeq .A q).busyLeft = s.busyLeft := rfl
@[simp] theorem setSeqA_ctrl : (s.setSeq .A q).ctrl = s.ctrl := rfl
@[simp] theorem setSeqA_baseClk : (s.setSeq .A q).baseClk = s.baseClk := rfl
@[simp] theorem setSeqA_toneFreq : (s.setSeq .A q).toneFreq = s.toneFreq := rfl
@[simp] theorem setSeqA_amplitude : (s.setSeq .A q).amplitude = s.amplitude := rfl
@[simp] theorem setSeqA_ampCeiling : (s.setSeq .A q).ampCeiling = s.ampCeiling := rfl
@[simp] theorem setSeqA_tableSize : (s.setSeq .A q).tableSize = s.tableSize := rfl
@[simp] theorem setSeqA_divA : (s.setSeq .A q).divA = s.divA := rfl
@[simp] theorem setSeqA_divB : (s.setSeq .A q).divB = s.divB := rfl
@[simp] theorem setSeqA_tblIndex : (s.setSeq .A q).tblIndex = s.tblIndex := rfl
@[simp] theorem setSeqA_encIn : (s.setSeq .A q).encIn = s.encIn := rfl
@[simp] theorem setSeqA_sample : (s.setSeq .A q).sample = s.sample := rfl
@[simp] theorem setSeqA_word : (s.setSeq .A q).word = s.word := rfl
@[simp] theorem setSeqA_txq : (s.setSeq .A q).txq = s.txq := rfl
@[simp] theorem setSeqA_j : (s.setSeq .A q).j = s.j := rfl
@[simp] theorem setSeqA_seqA : (s.setSeq .A q).seqA = q := rfl
@[simp] theorem setSeqA_seqB : (s.setSeq .A q).seqB = s.seqB := rfl
@[simp] theorem setSeqA_osr : (s.setSeq .A q).osr = s.osr := rfl
@[simp] theorem setSeqA_osrCnt : (s.setSeq .A q).osrCnt = s.osrCnt := rfl
@[simp] theorem setSeqA_data : (s.setSeq .A q).data = s.data := rfl
@[simp] theorem setSeqA_bck : (s.setSeq .A q).bck = s.bck := rfl
@[simp] theorem setSeqA_lrck : (s.setSeq .A q).lrck = s.lrck := rfl
@[simp] theorem setSeqA_rst : (s.setSeq .A q).rst = s.rst := rfl
@[simp] theorem setSeqA_host : (s.setSeq .A q).host = s.host := rfl
@[simp] theorem setSeqA_readData : (s.setSeq .A q).readData = s.readData := rfl
@[simp] theorem setSeqA_active : (s.setSeq .A q).active = s.active := rfl
@[simp] theorem setSeqA_latencyDraw : (s.setSeq .A q).latencyDraw = s.latencyDraw := rfl
@[simp] theorem setSeqA_latencyIndex : (s.setSeq .A q).latencyIndex = s.latencyIndex := rfl

end setSeqA

/-! ### setSeqB -/
section setSeqB
variable (s : State) (q : Sequencer)

@[simp] theorem setSeqB_params : (s.setSeq .B q).params = s.params := rfl
@[simp] theorem setSeqB_romA : (s.setSeq .B q).romA = s.romA := rfl
@[simp] theorem setSeqB_romB : (s.setSeq .B q).romB = s.romB := rfl
@[simp] theorem setSeqB_ctl : (s.setSeq .B q).ctl = s.ctl := rfl
@[simp] theorem setSeqB_cause : (s.setSeq .B q).cause = s.cause := rfl
@[simp] theorem setSeqB_ign : (s.setSeq .B q).ign = s.ign := rfl
@[simp] theorem setSeqB_unf : (s.setSeq .B q).unf = s.unf := rfl
@[simp] theorem setSeqB_valid : (s.setSeq .B q).valid = s.valid := rfl
@[simp] theorem setSeqB_faultInfo : (s.setSeq .B q).faultInfo = s.faultInfo := rfl
@[simp] theorem setSeqB_settleCnt : (s.setSeq .B q).settleCnt = s.settleCnt := rfl
@[simp] theorem setSeqB_busyLeft : (s.setSeq .B q).busyLeft = s.busyLeft := rfl
@[simp] theorem setSeqB_ctrl : (s.setSeq .B q).ctrl = s.ctrl := rfl
@[simp] theorem setSeqB_baseClk : (s.setSeq .B q).baseClk = s.baseClk := rfl
@[simp] theorem setSeqB_toneFreq : (s.setSeq .B q).toneFreq = s.toneFreq := rfl
@[simp] theorem setSeqB_amplitude : (s.setSeq .B q).amplitude = s.amplitude := rfl
@[simp] theorem setSeqB_ampCeiling : (s.setSeq .B q).ampCeiling = s.ampCeiling := rfl
@[simp] theorem setSeqB_tableSize : (s.setSeq .B q).tableSize = s.tableSize := rfl
@[simp] theorem setSeqB_divA : (s.setSeq .B q).divA = s.divA := rfl
@[simp] theorem setSeqB_divB : (s.setSeq .B q).divB = s.divB := rfl
@[simp] theorem setSeqB_tblIndex : (s.setSeq .B q).tblIndex = s.tblIndex := rfl
@[simp] theorem setSeqB_encIn : (s.setSeq .B q).encIn = s.encIn := rfl
@[simp] theorem setSeqB_sample : (s.setSeq .B q).sample = s.sample := rfl
@[simp] theorem setSeqB_word : (s.setSeq .B q).word = s.word := rfl
@[simp] theorem setSeqB_txq : (s.setSeq .B q).txq = s.txq := rfl
@[simp] theorem setSeqB_j : (s.setSeq .B q).j = s.j := rfl
@[simp] theorem setSeqB_seqA : (s.setSeq .B q).seqA = s.seqA := rfl
@[simp] theorem setSeqB_seqB : (s.setSeq .B q).seqB = q := rfl
@[simp] theorem setSeqB_osr : (s.setSeq .B q).osr = s.osr := rfl
@[simp] theorem setSeqB_osrCnt : (s.setSeq .B q).osrCnt = s.osrCnt := rfl
@[simp] theorem setSeqB_data : (s.setSeq .B q).data = s.data := rfl
@[simp] theorem setSeqB_bck : (s.setSeq .B q).bck = s.bck := rfl
@[simp] theorem setSeqB_lrck : (s.setSeq .B q).lrck = s.lrck := rfl
@[simp] theorem setSeqB_rst : (s.setSeq .B q).rst = s.rst := rfl
@[simp] theorem setSeqB_host : (s.setSeq .B q).host = s.host := rfl
@[simp] theorem setSeqB_readData : (s.setSeq .B q).readData = s.readData := rfl
@[simp] theorem setSeqB_active : (s.setSeq .B q).active = s.active := rfl
@[simp] theorem setSeqB_latencyDraw : (s.setSeq .B q).latencyDraw = s.latencyDraw := rfl
@[simp] theorem setSeqB_latencyIndex : (s.setSeq .B q).latencyIndex = s.latencyIndex := rfl

end setSeqB

/-! ### acceptPrepare -/
section acceptPrepare
variable (s : State)

@[simp] theorem acceptPrepare_params : s.acceptPrepare.params = s.params := rfl
@[simp] theorem acceptPrepare_romA : s.acceptPrepare.romA = s.romA := rfl
@[simp] theorem acceptPrepare_romB : s.acceptPrepare.romB = s.romB := rfl
@[simp] theorem acceptPrepare_ctl : s.acceptPrepare.ctl = .busy := rfl
@[simp] theorem acceptPrepare_cause : s.acceptPrepare.cause = s.cause := rfl
@[simp] theorem acceptPrepare_ign : s.acceptPrepare.ign = s.ign := rfl
@[simp] theorem acceptPrepare_unf : s.acceptPrepare.unf = s.unf := rfl
@[simp] theorem acceptPrepare_valid : s.acceptPrepare.valid = false := rfl
@[simp] theorem acceptPrepare_faultInfo : s.acceptPrepare.faultInfo = s.faultInfo := rfl
@[simp] theorem acceptPrepare_settleCnt : s.acceptPrepare.settleCnt = s.settleCnt := rfl
@[simp] theorem acceptPrepare_busyLeft : s.acceptPrepare.busyLeft = s.latency := rfl
@[simp] theorem acceptPrepare_ctrl : s.acceptPrepare.ctrl = s.ctrl := rfl
@[simp] theorem acceptPrepare_baseClk : s.acceptPrepare.baseClk = s.baseClk := rfl
@[simp] theorem acceptPrepare_toneFreq : s.acceptPrepare.toneFreq = s.toneFreq := rfl
@[simp] theorem acceptPrepare_amplitude : s.acceptPrepare.amplitude = s.amplitude := rfl
@[simp] theorem acceptPrepare_ampCeiling : s.acceptPrepare.ampCeiling = s.ampCeiling := rfl
@[simp] theorem acceptPrepare_tableSize : s.acceptPrepare.tableSize = s.tableSize := rfl
@[simp] theorem acceptPrepare_divA : s.acceptPrepare.divA = 0 := rfl
@[simp] theorem acceptPrepare_divB : s.acceptPrepare.divB = 0 := rfl
@[simp] theorem acceptPrepare_tblIndex : s.acceptPrepare.tblIndex = s.tblIndex := rfl
@[simp] theorem acceptPrepare_encIn : s.acceptPrepare.encIn = s.encIn := rfl
@[simp] theorem acceptPrepare_sample : s.acceptPrepare.sample = s.sample := rfl
@[simp] theorem acceptPrepare_word : s.acceptPrepare.word = s.word := rfl
@[simp] theorem acceptPrepare_txq : s.acceptPrepare.txq = s.txq := rfl
@[simp] theorem acceptPrepare_j : s.acceptPrepare.j = s.j := rfl
@[simp] theorem acceptPrepare_seqA : s.acceptPrepare.seqA = s.seqA := rfl
@[simp] theorem acceptPrepare_seqB : s.acceptPrepare.seqB = s.seqB := rfl
@[simp] theorem acceptPrepare_osr : s.acceptPrepare.osr = s.osr := rfl
@[simp] theorem acceptPrepare_osrCnt : s.acceptPrepare.osrCnt = s.osrCnt := rfl
@[simp] theorem acceptPrepare_data : s.acceptPrepare.data = s.data := rfl
@[simp] theorem acceptPrepare_bck : s.acceptPrepare.bck = s.bck := rfl
@[simp] theorem acceptPrepare_lrck : s.acceptPrepare.lrck = s.lrck := rfl
@[simp] theorem acceptPrepare_rst : s.acceptPrepare.rst = s.rst := rfl
@[simp] theorem acceptPrepare_host : s.acceptPrepare.host = s.host := rfl
@[simp] theorem acceptPrepare_readData : s.acceptPrepare.readData = s.readData := rfl
@[simp] theorem acceptPrepare_active : s.acceptPrepare.active = s.active := rfl
@[simp] theorem acceptPrepare_latencyDraw : s.acceptPrepare.latencyDraw = Config.latencyDraw s.latencyIndex := rfl
@[simp] theorem acceptPrepare_latencyIndex : s.acceptPrepare.latencyIndex = s.latencyIndex + 1 := rfl

end acceptPrepare

/-! ### jointStart -/
section jointStart
variable (s : State)

@[simp] theorem jointStart_params : s.jointStart.params = s.params := rfl
@[simp] theorem jointStart_romA : s.jointStart.romA = s.romA := rfl
@[simp] theorem jointStart_romB : s.jointStart.romB = s.romB := rfl
@[simp] theorem jointStart_ctl : s.jointStart.ctl = .settling := rfl
@[simp] theorem jointStart_cause : s.jointStart.cause = s.cause := rfl
@[simp] theorem jointStart_ign : s.jointStart.ign = s.ign := rfl
@[simp] theorem jointStart_unf : s.jointStart.unf = s.unf := rfl
@[simp] theorem jointStart_valid : s.jointStart.valid = s.valid := rfl
@[simp] theorem jointStart_faultInfo : s.jointStart.faultInfo = s.faultInfo := rfl
@[simp] theorem jointStart_settleCnt : s.jointStart.settleCnt = 0 := rfl
@[simp] theorem jointStart_busyLeft : s.jointStart.busyLeft = s.busyLeft := rfl
@[simp] theorem jointStart_ctrl : s.jointStart.ctrl = s.ctrl := rfl
@[simp] theorem jointStart_baseClk : s.jointStart.baseClk = s.baseClk := rfl
@[simp] theorem jointStart_toneFreq : s.jointStart.toneFreq = s.toneFreq := rfl
@[simp] theorem jointStart_amplitude : s.jointStart.amplitude = s.amplitude := rfl
@[simp] theorem jointStart_ampCeiling : s.jointStart.ampCeiling = s.ampCeiling := rfl
@[simp] theorem jointStart_tableSize : s.jointStart.tableSize = s.tableSize := rfl
@[simp] theorem jointStart_divA : s.jointStart.divA = s.divA := rfl
@[simp] theorem jointStart_divB : s.jointStart.divB = s.divB := rfl
@[simp] theorem jointStart_tblIndex : s.jointStart.tblIndex = s.tblIndex := rfl
@[simp] theorem jointStart_encIn : s.jointStart.encIn = s.encIn := rfl
@[simp] theorem jointStart_sample : s.jointStart.sample = s.sample := rfl
@[simp] theorem jointStart_word : s.jointStart.word = s.word := rfl
@[simp] theorem jointStart_txq : s.jointStart.txq = s.txq := rfl
@[simp] theorem jointStart_j : s.jointStart.j = 0 := rfl
@[simp] theorem jointStart_seqA : s.jointStart.seqA = Sequencer.started s.divA := rfl
@[simp] theorem jointStart_seqB : s.jointStart.seqB = Sequencer.started s.divB := rfl
@[simp] theorem jointStart_osr : s.jointStart.osr = s.osr := rfl
@[simp] theorem jointStart_osrCnt : s.jointStart.osrCnt = s.osrCnt := rfl
@[simp] theorem jointStart_data : s.jointStart.data = s.data := rfl
@[simp] theorem jointStart_bck : s.jointStart.bck = s.bck := rfl
@[simp] theorem jointStart_lrck : s.jointStart.lrck = s.lrck := rfl
@[simp] theorem jointStart_rst : s.jointStart.rst = s.rst := rfl
@[simp] theorem jointStart_host : s.jointStart.host = s.host := rfl
@[simp] theorem jointStart_readData : s.jointStart.readData = s.readData := rfl
@[simp] theorem jointStart_active : s.jointStart.active = s.active := rfl
@[simp] theorem jointStart_latencyDraw : s.jointStart.latencyDraw = s.latencyDraw := rfl
@[simp] theorem jointStart_latencyIndex : s.jointStart.latencyIndex = s.latencyIndex := rfl

end jointStart

/-! ### shiftOut -/
section shiftOut
variable (s : State)

@[simp] theorem shiftOut_params : s.shiftOut.params = s.params := rfl
@[simp] theorem shiftOut_romA : s.shiftOut.romA = s.romA := rfl
@[simp] theorem shiftOut_romB : s.shiftOut.romB = s.romB := rfl
@[simp] theorem shiftOut_ctl : s.shiftOut.ctl = s.ctl := rfl
@[simp] theorem shiftOut_cause : s.shiftOut.cause = s.cause := rfl
@[simp] theorem shiftOut_ign : s.shiftOut.ign = s.ign := rfl
@[simp] theorem shiftOut_unf : s.shiftOut.unf = s.unf := rfl
@[simp] theorem shiftOut_valid : s.shiftOut.valid = s.valid := rfl
@[simp] theorem shiftOut_faultInfo : s.shiftOut.faultInfo = s.faultInfo := rfl
@[simp] theorem shiftOut_settleCnt : s.shiftOut.settleCnt = s.settleCnt := rfl
@[simp] theorem shiftOut_busyLeft : s.shiftOut.busyLeft = s.busyLeft := rfl
@[simp] theorem shiftOut_ctrl : s.shiftOut.ctrl = s.ctrl := rfl
@[simp] theorem shiftOut_baseClk : s.shiftOut.baseClk = s.baseClk := rfl
@[simp] theorem shiftOut_toneFreq : s.shiftOut.toneFreq = s.toneFreq := rfl
@[simp] theorem shiftOut_amplitude : s.shiftOut.amplitude = s.amplitude := rfl
@[simp] theorem shiftOut_ampCeiling : s.shiftOut.ampCeiling = s.ampCeiling := rfl
@[simp] theorem shiftOut_tableSize : s.shiftOut.tableSize = s.tableSize := rfl
@[simp] theorem shiftOut_divA : s.shiftOut.divA = s.divA := rfl
@[simp] theorem shiftOut_divB : s.shiftOut.divB = s.divB := rfl
@[simp] theorem shiftOut_tblIndex : s.shiftOut.tblIndex = s.tblIndex := rfl
@[simp] theorem shiftOut_encIn : s.shiftOut.encIn = s.encIn := rfl
@[simp] theorem shiftOut_sample : s.shiftOut.sample = s.sample := rfl
@[simp] theorem shiftOut_word : s.shiftOut.word = s.word := rfl
@[simp] theorem shiftOut_txq : s.shiftOut.txq = s.txq := rfl
@[simp] theorem shiftOut_j : s.shiftOut.j = s.j := rfl
@[simp] theorem shiftOut_seqA : s.shiftOut.seqA = s.seqA := rfl
@[simp] theorem shiftOut_seqB : s.shiftOut.seqB = s.seqB := rfl
@[simp] theorem shiftOut_osr : s.shiftOut.osr = s.osr >>> 1 := rfl
@[simp] theorem shiftOut_osrCnt : s.shiftOut.osrCnt = countUp s.osrCnt := rfl
@[simp] theorem shiftOut_data : s.shiftOut.data = s.osrBit := rfl
@[simp] theorem shiftOut_bck : s.shiftOut.bck = s.bck := rfl
@[simp] theorem shiftOut_lrck : s.shiftOut.lrck = s.lrck := rfl
@[simp] theorem shiftOut_rst : s.shiftOut.rst = s.rst := rfl
@[simp] theorem shiftOut_host : s.shiftOut.host = s.host := rfl
@[simp] theorem shiftOut_readData : s.shiftOut.readData = s.readData := rfl
@[simp] theorem shiftOut_active : s.shiftOut.active = s.active := rfl
@[simp] theorem shiftOut_latencyDraw : s.shiftOut.latencyDraw = s.latencyDraw := rfl
@[simp] theorem shiftOut_latencyIndex : s.shiftOut.latencyIndex = s.latencyIndex := rfl

end shiftOut

/-! ### retire -/
section retire
variable (s : State) (d : BitVec 2)

@[simp] theorem retire_params : (s.retire d).params = s.params := by cases h : s.active <;> simp [State.retire, State.setSeq, State.seq, h]
@[simp] theorem retire_romA : (s.retire d).romA = s.romA := by cases h : s.active <;> simp [State.retire, State.setSeq, State.seq, h]
@[simp] theorem retire_romB : (s.retire d).romB = s.romB := by cases h : s.active <;> simp [State.retire, State.setSeq, State.seq, h]
@[simp] theorem retire_ctl : (s.retire d).ctl = s.ctl := by cases h : s.active <;> simp [State.retire, State.setSeq, State.seq, h]
@[simp] theorem retire_cause : (s.retire d).cause = s.cause := by cases h : s.active <;> simp [State.retire, State.setSeq, State.seq, h]
@[simp] theorem retire_ign : (s.retire d).ign = s.ign := by cases h : s.active <;> simp [State.retire, State.setSeq, State.seq, h]
@[simp] theorem retire_unf : (s.retire d).unf = s.unf := by cases h : s.active <;> simp [State.retire, State.setSeq, State.seq, h]
@[simp] theorem retire_valid : (s.retire d).valid = s.valid := by cases h : s.active <;> simp [State.retire, State.setSeq, State.seq, h]
@[simp] theorem retire_faultInfo : (s.retire d).faultInfo = s.faultInfo := by cases h : s.active <;> simp [State.retire, State.setSeq, State.seq, h]
@[simp] theorem retire_settleCnt : (s.retire d).settleCnt = s.settleCnt := by cases h : s.active <;> simp [State.retire, State.setSeq, State.seq, h]
@[simp] theorem retire_busyLeft : (s.retire d).busyLeft = s.busyLeft := by cases h : s.active <;> simp [State.retire, State.setSeq, State.seq, h]
@[simp] theorem retire_ctrl : (s.retire d).ctrl = s.ctrl := by cases h : s.active <;> simp [State.retire, State.setSeq, State.seq, h]
@[simp] theorem retire_baseClk : (s.retire d).baseClk = s.baseClk := by cases h : s.active <;> simp [State.retire, State.setSeq, State.seq, h]
@[simp] theorem retire_toneFreq : (s.retire d).toneFreq = s.toneFreq := by cases h : s.active <;> simp [State.retire, State.setSeq, State.seq, h]
@[simp] theorem retire_amplitude : (s.retire d).amplitude = s.amplitude := by cases h : s.active <;> simp [State.retire, State.setSeq, State.seq, h]
@[simp] theorem retire_ampCeiling : (s.retire d).ampCeiling = s.ampCeiling := by cases h : s.active <;> simp [State.retire, State.setSeq, State.seq, h]
@[simp] theorem retire_tableSize : (s.retire d).tableSize = s.tableSize := by cases h : s.active <;> simp [State.retire, State.setSeq, State.seq, h]
@[simp] theorem retire_divA : (s.retire d).divA = s.divA := by cases h : s.active <;> simp [State.retire, State.setSeq, State.seq, h]
@[simp] theorem retire_divB : (s.retire d).divB = s.divB := by cases h : s.active <;> simp [State.retire, State.setSeq, State.seq, h]
@[simp] theorem retire_tblIndex : (s.retire d).tblIndex = s.tblIndex := by cases h : s.active <;> simp [State.retire, State.setSeq, State.seq, h]
@[simp] theorem retire_encIn : (s.retire d).encIn = s.encIn := by cases h : s.active <;> simp [State.retire, State.setSeq, State.seq, h]
@[simp] theorem retire_sample : (s.retire d).sample = s.sample := by cases h : s.active <;> simp [State.retire, State.setSeq, State.seq, h]
@[simp] theorem retire_word : (s.retire d).word = s.word := by cases h : s.active <;> simp [State.retire, State.setSeq, State.seq, h]
@[simp] theorem retire_txq : (s.retire d).txq = s.txq := by cases h : s.active <;> simp [State.retire, State.setSeq, State.seq, h]
@[simp] theorem retire_j : (s.retire d).j = s.j := by cases h : s.active <;> simp [State.retire, State.setSeq, State.seq, h]
@[simp] theorem retire_seqA : (s.retire d).seqA = if s.active = .A then s.seqA.advance d else s.seqA := by cases h : s.active <;> simp [State.retire, State.setSeq, State.seq, h]
@[simp] theorem retire_seqB : (s.retire d).seqB = if s.active = .B then s.seqB.advance d else s.seqB := by cases h : s.active <;> simp [State.retire, State.setSeq, State.seq, h]
@[simp] theorem retire_osr : (s.retire d).osr = s.osr := by cases h : s.active <;> simp [State.retire, State.setSeq, State.seq, h]
@[simp] theorem retire_osrCnt : (s.retire d).osrCnt = s.osrCnt := by cases h : s.active <;> simp [State.retire, State.setSeq, State.seq, h]
@[simp] theorem retire_data : (s.retire d).data = s.data := by cases h : s.active <;> simp [State.retire, State.setSeq, State.seq, h]
@[simp] theorem retire_bck : (s.retire d).bck = s.bck := by cases h : s.active <;> simp [State.retire, State.setSeq, State.seq, h]
@[simp] theorem retire_lrck : (s.retire d).lrck = s.lrck := by cases h : s.active <;> simp [State.retire, State.setSeq, State.seq, h]
@[simp] theorem retire_rst : (s.retire d).rst = s.rst := by cases h : s.active <;> simp [State.retire, State.setSeq, State.seq, h]
@[simp] theorem retire_host : (s.retire d).host = s.host := by cases h : s.active <;> simp [State.retire, State.setSeq, State.seq, h]
@[simp] theorem retire_readData : (s.retire d).readData = s.readData := by cases h : s.active <;> simp [State.retire, State.setSeq, State.seq, h]
@[simp] theorem retire_active : (s.retire d).active = s.active := by cases h : s.active <;> simp [State.retire, State.setSeq, State.seq, h]
@[simp] theorem retire_latencyDraw : (s.retire d).latencyDraw = s.latencyDraw := by cases h : s.active <;> simp [State.retire, State.setSeq, State.seq, h]
@[simp] theorem retire_latencyIndex : (s.retire d).latencyIndex = s.latencyIndex := by cases h : s.active <;> simp [State.retire, State.setSeq, State.seq, h]

end retire

/-! ### driveClk -/
section driveClk
variable (s : State) (X : SeqId) (b : Bool)

@[simp] theorem driveClk_params : (s.driveClk X b).params = s.params := by cases X <;> rfl
@[simp] theorem driveClk_romA : (s.driveClk X b).romA = s.romA := by cases X <;> rfl
@[simp] theorem driveClk_romB : (s.driveClk X b).romB = s.romB := by cases X <;> rfl
@[simp] theorem driveClk_ctl : (s.driveClk X b).ctl = s.ctl := by cases X <;> rfl
@[simp] theorem driveClk_cause : (s.driveClk X b).cause = s.cause := by cases X <;> rfl
@[simp] theorem driveClk_ign : (s.driveClk X b).ign = s.ign := by cases X <;> rfl
@[simp] theorem driveClk_unf : (s.driveClk X b).unf = s.unf := by cases X <;> rfl
@[simp] theorem driveClk_valid : (s.driveClk X b).valid = s.valid := by cases X <;> rfl
@[simp] theorem driveClk_faultInfo : (s.driveClk X b).faultInfo = s.faultInfo := by cases X <;> rfl
@[simp] theorem driveClk_settleCnt : (s.driveClk X b).settleCnt = s.settleCnt := by cases X <;> rfl
@[simp] theorem driveClk_busyLeft : (s.driveClk X b).busyLeft = s.busyLeft := by cases X <;> rfl
@[simp] theorem driveClk_ctrl : (s.driveClk X b).ctrl = s.ctrl := by cases X <;> rfl
@[simp] theorem driveClk_baseClk : (s.driveClk X b).baseClk = s.baseClk := by cases X <;> rfl
@[simp] theorem driveClk_toneFreq : (s.driveClk X b).toneFreq = s.toneFreq := by cases X <;> rfl
@[simp] theorem driveClk_amplitude : (s.driveClk X b).amplitude = s.amplitude := by cases X <;> rfl
@[simp] theorem driveClk_ampCeiling : (s.driveClk X b).ampCeiling = s.ampCeiling := by cases X <;> rfl
@[simp] theorem driveClk_tableSize : (s.driveClk X b).tableSize = s.tableSize := by cases X <;> rfl
@[simp] theorem driveClk_divA : (s.driveClk X b).divA = s.divA := by cases X <;> rfl
@[simp] theorem driveClk_divB : (s.driveClk X b).divB = s.divB := by cases X <;> rfl
@[simp] theorem driveClk_tblIndex : (s.driveClk X b).tblIndex = s.tblIndex := by cases X <;> rfl
@[simp] theorem driveClk_encIn : (s.driveClk X b).encIn = s.encIn := by cases X <;> rfl
@[simp] theorem driveClk_sample : (s.driveClk X b).sample = s.sample := by cases X <;> rfl
@[simp] theorem driveClk_word : (s.driveClk X b).word = s.word := by cases X <;> rfl
@[simp] theorem driveClk_txq : (s.driveClk X b).txq = s.txq := by cases X <;> rfl
@[simp] theorem driveClk_j : (s.driveClk X b).j = s.j := by cases X <;> rfl
@[simp] theorem driveClk_seqA : (s.driveClk X b).seqA = s.seqA := by cases X <;> rfl
@[simp] theorem driveClk_seqB : (s.driveClk X b).seqB = s.seqB := by cases X <;> rfl
@[simp] theorem driveClk_osr : (s.driveClk X b).osr = s.osr := by cases X <;> rfl
@[simp] theorem driveClk_osrCnt : (s.driveClk X b).osrCnt = s.osrCnt := by cases X <;> rfl
@[simp] theorem driveClk_data : (s.driveClk X b).data = s.data := by cases X <;> rfl
@[simp] theorem driveClk_bck : (s.driveClk X b).bck = if X = .A then b else s.bck := by cases X <;> rfl
@[simp] theorem driveClk_lrck : (s.driveClk X b).lrck = if X = .B then b else s.lrck := by cases X <;> rfl
@[simp] theorem driveClk_rst : (s.driveClk X b).rst = s.rst := by cases X <;> rfl
@[simp] theorem driveClk_host : (s.driveClk X b).host = s.host := by cases X <;> rfl
@[simp] theorem driveClk_readData : (s.driveClk X b).readData = s.readData := by cases X <;> rfl
@[simp] theorem driveClk_active : (s.driveClk X b).active = s.active := by cases X <;> rfl
@[simp] theorem driveClk_latencyDraw : (s.driveClk X b).latencyDraw = s.latencyDraw := by cases X <;> rfl
@[simp] theorem driveClk_latencyIndex : (s.driveClk X b).latencyIndex = s.latencyIndex := by cases X <;> rfl

end driveClk


/-! ### Sequencers by name -/

@[simp] theorem seq_A (s : State) : s.seq .A = s.seqA := rfl
@[simp] theorem seq_B (s : State) : s.seq .B = s.seqB := rfl
@[simp] theorem d256_A (s : State) : s.d256 .A = s.divA := rfl
@[simp] theorem d256_B (s : State) : s.d256 .B = s.divB := rfl
@[simp] theorem rom_A (s : State) : s.rom .A = s.romA := rfl
@[simp] theorem rom_B (s : State) : s.rom .B = s.romB := rfl
@[simp] theorem advance_run (q : Sequencer) (d : BitVec 2) : (q.advance d).run = q.run := rfl
@[simp] theorem advance_acc (q : Sequencer) (d : BitVec 2) : (q.advance d).acc = q.acc := rfl
@[simp] theorem advance_pc (q : Sequencer) (d : BitVec 2) : (q.advance d).pc = q.pc + 1 := rfl
@[simp] theorem advance_dly (q : Sequencer) (d : BitVec 2) : (q.advance d).dly = d := rfl
@[simp] theorem started_run (d : BitVec 24) : (Sequencer.started d).run = true := rfl
@[simp] theorem started_pc (d : BitVec 24) : (Sequencer.started d).pc = 0 := rfl
@[simp] theorem started_dly (d : BitVec 24) : (Sequencer.started d).dly = 0 := rfl
@[simp] theorem started_acc (d : BitVec 24) : (Sequencer.started d).acc = d - 256 := rfl

end Sys2Proof.Machine
end

