-- ==== Sys2Proof/Laws/Tables.lean ====
section
/-! SUPPORT. Laws/Tables.lean: reading, writing and the canonical form of the tables. -/
namespace Sys2Proof.Machine.Table

@[simp] theorem read_nil (i : Nat) : Table.read [] i = 0 := rfl

/-- No pair at or below `i` in a canonical rest whose indices lie above `i`. -/
theorem read_eq_zero_of_all_gt {t : Table} {i : Nat} (h : t.all (fun c => decide (i < c.1)) = true) :
    t.read i = 0 := by
  induction t with
  | nil => rfl
  | cons c t ih =>
    obtain ⟨k, v⟩ := c
    simp only [List.all_cons, Bool.and_eq_true, decide_eq_true_eq] at h
    simp only [read]
    rw [if_neg (by omega), ih h.2]

theorem wf_cons {k : Nat} {v : Word} {t : Table} :
    Table.wf ((k, v) :: t) = true ↔ v ≠ 0 ∧ (t.all fun c => decide (k < c.1)) = true ∧ t.wf = true := by
  simp [wf, and_assoc]

/-- A read after a write to the same entry gives the value written. -/
theorem read_write_same {t : Table} (h : t.wf = true) (i : Nat) (v : Word) : (t.write i v).read i = v := by
  induction t with
  | nil =>
    simp only [write]
    split <;> simp_all [read]
  | cons c t ih =>
    obtain ⟨k, w⟩ := c
    obtain ⟨-, hall, hwf⟩ := wf_cons.1 h
    simp only [write]
    by_cases hik : i < k
    · rw [if_pos hik]
      split
      · rename_i hv
        rw [hv]
        exact read_eq_zero_of_all_gt (by
          simp only [List.all_cons, Bool.and_eq_true, decide_eq_true_eq, List.all_eq_true] at *
          exact ⟨hik, fun c hc => by have := hall c hc; omega⟩)
      · simp [read]
    · rw [if_neg hik]
      by_cases he : i = k
      · subst he
        rw [if_pos rfl]
        split
        · rename_i hv
          rw [hv, read_eq_zero_of_all_gt hall]
        · simp [read]
      · rw [if_neg he]
        simp only [read]
        rw [if_neg (by omega), ih hwf]

/-- A write leaves every other entry alone. -/
theorem read_write_other {t : Table} (h : t.wf = true) {i j : Nat} (hij : j ≠ i) (v : Word) :
    (t.write i v).read j = t.read j := by
  induction t with
  | nil =>
    simp only [write]
    split <;> simp_all [read]
    omega
  | cons c t ih =>
    obtain ⟨k, w⟩ := c
    obtain ⟨-, hall, hwf⟩ := wf_cons.1 h
    simp only [write]
    by_cases hik : i < k
    · rw [if_pos hik]
      split
      · rfl
      · rw [read, if_neg (by omega)]
    · rw [if_neg hik]
      by_cases he : i = k
      · subst he
        rw [if_pos rfl]
        split
        · simp only [read]; rw [if_neg (by omega)]
        · simp only [read]; rw [if_neg (by omega), if_neg (by omega)]
      · rw [if_neg he]
        simp only [read]
        rw [ih hwf]

theorem all_gt_write {t : Table} {k i : Nat} {v : Word} (h : (t.all fun c => decide (k < c.1)) = true) (hk : k < i) :
    ((t.write i v).all fun c => decide (k < c.1)) = true := by
  induction t with
  | nil =>
    simp only [write]
    split <;> simp [hk]
  | cons c t ih =>
    obtain ⟨l, w⟩ := c
    simp only [List.all_cons, Bool.and_eq_true, decide_eq_true_eq] at h
    simp only [write]
    by_cases hil : i < l
    · rw [if_pos hil]
      split
      · simpa using h
      · simpa [hk] using h
    · rw [if_neg hil]
      by_cases he : i = l
      · rw [if_pos he]
        split
        · exact h.2
        · simpa [he] using h
      · rw [if_neg he]
        simp [h.1, ih h.2]

/-- Every write keeps the canonical form. -/
theorem write_wf {t : Table} (h : t.wf = true) (i : Nat) (v : Word) : (t.write i v).wf = true := by
  induction t with
  | nil =>
    simp only [write]
    split <;> simp_all [wf]
  | cons c t ih =>
    obtain ⟨k, w⟩ := c
    obtain ⟨hw, hall, hwf⟩ := wf_cons.1 h
    simp only [write]
    by_cases hik : i < k
    · rw [if_pos hik]
      split
      · exact h
      · rename_i hv
        refine wf_cons.2 ⟨hv, ?_, h⟩
        simp only [List.all_cons, Bool.and_eq_true, decide_eq_true_eq, List.all_eq_true] at *
        exact ⟨hik, fun c hc => by have := hall c hc; omega⟩
    · rw [if_neg hik]
      by_cases he : i = k
      · subst he
        rw [if_pos rfl]
        split
        · exact hwf
        · rename_i hv
          exact wf_cons.2 ⟨hv, hall, hwf⟩
      · rw [if_neg he]
        exact wf_cons.2 ⟨hw, all_gt_write hall (by omega), ih hwf⟩

/-- Canonical tables that read the same are the same data. -/
theorem ext_of_read {t u : Table} (ht : t.wf = true) (hu : u.wf = true) (h : ∀ i, t.read i = u.read i) : t = u := by
  induction t generalizing u with
  | nil =>
    cases u with
    | nil => rfl
    | cons c u =>
      obtain ⟨k, v⟩ := c
      have := h k
      simp [read] at this
      exact absurd this.symm (wf_cons.1 hu).1
  | cons c t ih =>
    obtain ⟨k, v⟩ := c
    obtain ⟨hv, hall, hwf⟩ := wf_cons.1 ht
    cases u with
    | nil =>
      have := h k
      simp [read] at this
      exact absurd this hv
    | cons d u =>
      obtain ⟨l, w⟩ := d
      obtain ⟨hw, hall', hwf'⟩ := wf_cons.1 hu
      have hkl : k = l := by
        rcases Nat.lt_trichotomy k l with hlt | heq | hgt
        · have := h k
          simp only [read, if_pos, if_neg (show ¬ l = k by omega)] at this
          rw [read_eq_zero_of_all_gt (i := k) (by
            simp only [List.all_eq_true, decide_eq_true_eq] at *
            exact fun c hc => by have := hall' c hc; omega)] at this
          exact absurd this hv
        · exact heq
        · have := h l
          simp only [read, if_pos, if_neg (show ¬ k = l by omega)] at this
          rw [read_eq_zero_of_all_gt (i := l) (by
            simp only [List.all_eq_true, decide_eq_true_eq] at *
            exact fun c hc => by have := hall c hc; omega)] at this
          exact absurd this.symm hw
      subst hkl
      have hvw : v = w := by have := h k; simpa [read] using this
      subst hvw
      have htu : t = u := ih hwf hwf' fun i => by
        by_cases hik : k = i
        · subst hik
          rw [read_eq_zero_of_all_gt hall, read_eq_zero_of_all_gt hall']
        · have := h i
          simpa [read, hik] using this
      rw [htu]

end Sys2Proof.Machine.Table
end

