-- ==== Sys2Proof/Laws/Prepare.lean ====
section
/-! SUPPORT. Laws/Prepare.lean: what the parts of PREPARE completion can do (44_transmitter.md R239). -/
namespace Sys2Proof.Machine

/-! ### The encoding pass -/

/-- The encoding pass writes WORD[i..i+n−1] and nothing else. -/
theorem encodeFrom_spec (n i : Nat) (s : State) (hw : s.word.wf = true) :
    ∃ w : Table, encodeFrom n i s = { s with word := w } ∧ w.wf = true ∧
      (∀ k, i ≤ k → k < i + n → w.read k = encodeSample (s.sample.read k) s.is24Bit) ∧
      (∀ k, k < i ∨ i + n ≤ k → w.read k = s.word.read k) := by
  induction n generalizing i s with
  | zero => exact ⟨s.word, rfl, hw, fun k h1 h2 => by omega, fun _ _ => rfl⟩
  | succ n ih =>
    obtain ⟨w, he, hwf, hin, hout⟩ := ih (i + 1)
      { s with word := s.word.write i (encodeSample (s.sample.read i) s.is24Bit) } (Table.write_wf hw _ _)
    refine ⟨w, by simp only [encodeFrom, he], hwf, ?_, ?_⟩
    · intro k h1 h2
      by_cases hk : k = i
      · subst hk
        rw [hout k (by omega)]
        exact Table.read_write_same hw _ _
      · exact hin k (by omega) (by omega)
    · intro k hk
      rw [hout k (by omega)]
      exact Table.read_write_other hw (by omega) _

/-- The encoding pass keeps everything but WORD, whatever the table holds. -/
theorem encodeFrom_frame (n i : Nat) (s : State) : ∃ w : Table, encodeFrom n i s = { s with word := w } := by
  induction n generalizing i s with
  | zero => exact ⟨s.word, rfl⟩
  | succ n ih =>
    obtain ⟨w, he⟩ := ih (i + 1) { s with word := s.word.write i (encodeSample (s.sample.read i) s.is24Bit) }
    exact ⟨w, by simp only [encodeFrom, he]⟩

/-! ### The synthesis loop -/

/-- Where the loop ends, it has written SAMPLE[i..i+n−1] with the samples of R154 and nothing else. -/
theorem synthFrom_ok {step af : F32} {n i : Nat} {s t : State} (hw : s.sample.wf = true)
    (h : synthFrom step af n i s = .ok t) :
    t = { s with sample := t.sample } ∧ t.sample.wf = true ∧
      (∀ k, i ≤ k → k < i + n → ∃ r, sampleAt s.params.cubicSign step af s.ampCeiling.toNat k = some r ∧
        t.sample.read k = BitVec.ofInt 32 r) ∧
      (∀ k, k < i ∨ i + n ≤ k → t.sample.read k = s.sample.read k) := by
  induction n generalizing i s with
  | zero =>
    simp only [synthFrom, Except.ok.injEq] at h
    subst h
    exact ⟨rfl, hw, fun k h1 h2 => by omega, fun _ _ => rfl⟩
  | succ n ih =>
    simp only [synthFrom] at h
    split at h
    · cases h
    · rename_i r hr
      obtain ⟨heq, hwf, hin, hout⟩ := ih (Table.write_wf hw i _) h
      refine ⟨heq, hwf, ?_, ?_⟩
      · intro k h1 h2
        by_cases hk : k = i
        · subst hk
          exact ⟨r, hr, by rw [hout k (by omega)]; exact Table.read_write_same hw _ _⟩
        · exact hin k (by omega) (by omega)
      · intro k hk
        rw [hout k (by omega)]
        exact Table.read_write_other hw (by omega) _

/-- Where the loop stops, it has raised SYNTH_RANGE at the lowest failing index, with the samples below it written. -/
theorem synthFrom_error {step af : F32} {n i : Nat} {s t : State} (hw : s.sample.wf = true)
    (h : synthFrom step af n i s = .error t) :
    ∃ k, i ≤ k ∧ k < i + n ∧ sampleAt s.params.cubicSign step af s.ampCeiling.toNat k = none ∧
      t = ({ s with sample := t.sample } : State).raiseFault .synthRange (BitVec.ofNat 32 k) ∧ t.sample.wf = true ∧
      (∀ l, i ≤ l → l < k → ∃ r, sampleAt s.params.cubicSign step af s.ampCeiling.toNat l = some r ∧
        t.sample.read l = BitVec.ofInt 32 r) ∧
      (∀ l, l < i → t.sample.read l = s.sample.read l) := by
  induction n generalizing i s with
  | zero => cases h
  | succ n ih =>
    simp only [synthFrom] at h
    split at h
    · rename_i hr
      simp only [Except.error.injEq] at h
      subst h
      exact ⟨i, by omega, by omega, hr, rfl, hw, fun l h1 h2 => by omega, fun _ _ => rfl⟩
    · rename_i r hr
      obtain ⟨k, h1, h2, hk, heq, hwf, hin, hout⟩ := ih (Table.write_wf hw i _) h
      refine ⟨k, by omega, by omega, hk, heq, hwf, ?_, ?_⟩
      · intro l hl1 hl2
        by_cases hl : l = i
        · subst hl
          exact ⟨r, hr, by rw [hout l (by omega)]; exact Table.read_write_same hw _ _⟩
        · exact hin l (by omega) hl2
      · intro l hl
        rw [hout l (by omega)]
        exact Table.read_write_other hw (by omega) _

/-- The loop keeps everything but SAMPLE and, where it stops, the fault fields, whatever the table holds. -/
theorem synthFrom_frame (step af : F32) (n i : Nat) (s : State) :
    (∃ v : Table, synthFrom step af n i s = .ok { s with sample := v }) ∨
    (∃ (v : Table) (k : Nat), synthFrom step af n i s =
      .error (({ s with sample := v } : State).raiseFault .synthRange (BitVec.ofNat 32 k))) := by
  induction n generalizing i s with
  | zero => exact .inl ⟨s.sample, rfl⟩
  | succ n ih =>
    simp only [synthFrom]
    split
    · exact .inr ⟨s.sample, i, rfl⟩
    · rename_i r _
      rcases ih (i + 1) { s with sample := s.sample.write i (BitVec.ofInt 32 r) } with ⟨v, hv⟩ | ⟨v, k, hv⟩
      · exact .inl ⟨v, hv⟩
      · exact .inr ⟨v, k, hv⟩

/-! ### The checks -/

/-- The checks of R151 pass, or raise one of their four faults. -/
theorem checkSynthInputs_cases (fs : Nat) (s : State) :
    (checkSynthInputs fs s = .ok s ∧ 1 ≤ s.tableLen ∧ s.tableLen ≤ s.params.tableCap ∧
      s.ampCeiling.toNat ≤ ceilMax s.is24Bit) ∨
    (∃ c info, c ≠ .none ∧ checkSynthInputs fs s = .error (s.raiseFault c info)) := by
  unfold checkSynthInputs
  split
  · exact .inr ⟨_, _, by decide, rfl⟩
  · rename_i h1
    split
    · exact .inr ⟨_, _, by decide, rfl⟩
    · split
      · exact .inr ⟨_, _, by decide, rfl⟩
      · rename_i h3
        split
        · exact .inr ⟨_, _, by decide, rfl⟩
        · exact .inl ⟨rfl, by omega, by omega, by omega⟩

/-! ### The work of PREPARE -/

/-- A PREPARE that succeeds: every part succeeded (R239). -/
theorem prepareWork_ok {s t : State} (h : prepareWork s = .ok t) :
    ∃ fs fbck ia fa ib fb u, rateTable s.rateSel = some (fs, fbck) ∧ baseClkValid s.baseClk = true ∧
      computeDivisor (F32.flt s.baseClk) (F32.ofNat 4) (F32.ofNat fbck) = .ok ia fa ∧
      computeDivisor (F32.flt s.baseClk) (F32.ofNat 2) (F32.ofNat fs) = .ok ib fb ∧
      checkSynthInputs fs { s with divA := d256Of ia fa, divB := d256Of ib fb } =
        .ok { s with divA := d256Of ia fa, divB := d256Of ib fb } ∧
      synth fs { s with divA := d256Of ia fa, divB := d256Of ib fb } = .ok u ∧ t = encodePass u := by
  simp only [prepareWork, bind, Except.bind, checkRate, checkBaseClk, computeDivA, computeDivB, pure, Except.pure] at h
  cases hr : rateTable s.rateSel with
  | none => simp [hr] at h
  | some row =>
    obtain ⟨fs, fbck⟩ := row
    simp only [hr] at h
    by_cases hb : baseClkValid s.baseClk = true
    · simp only [hb, if_true] at h
      cases hA : computeDivisor (F32.flt s.baseClk) (F32.ofNat 4) (F32.ofNat fbck) with
      | low d => simp [hA] at h
      | high d => simp [hA] at h
      | ok ia fa =>
        simp only [hA] at h
        cases hB : computeDivisor (F32.flt s.baseClk) (F32.ofNat 2) (F32.ofNat fs) with
        | low d => simp [hB] at h
        | high d => simp [hB] at h
        | ok ib fb =>
          simp only [hB] at h
          rcases checkSynthInputs_cases fs { s with divA := d256Of ia fa, divB := d256Of ib fb } with
            ⟨hc, -⟩ | ⟨c, info, -, hc⟩
          · simp only [hc] at h
            split at h
            · cases h
            · rename_i u hu
              exact ⟨fs, fbck, ia, fa, ib, fb, u, rfl, hb, hA, hB, hc, hu, by simpa using h.symm⟩
          · simp [hc] at h
    · simp [hb] at h

/-- The work of PREPARE after a legal rate and BASE_CLK: the divisors, the checks, SYNTH and the encoding pass, one after the
other (R239). Each fault of a part is read off this equation. -/
theorem prepareWork_eq {s : State} {fs fbck : Nat} (hr : rateTable s.rateSel = some (fs, fbck))
    (hb : baseClkValid s.baseClk = true) :
    prepareWork s = ((((computeDivA (F32.flt s.baseClk) fbck s).bind (computeDivB (F32.flt s.baseClk) fs)).bind
      (checkSynthInputs fs)).bind (synth fs)).map encodePass := by
  simp only [prepareWork, bind, checkRate, checkBaseClk, hr, hb, if_true, Except.bind, pure, Except.pure]
  cases computeDivA (F32.flt s.baseClk) fbck s with
  | error e => rfl
  | ok a =>
    simp only
    cases computeDivB (F32.flt s.baseClk) fs a with
    | error e => rfl
    | ok b =>
      simp only
      cases checkSynthInputs fs b with
      | error e => rfl
      | ok c =>
        simp only
        cases synth fs c <;> rfl

/-- A PREPARE that faults: the fault fields, the divisor registers and SAMPLE are all it may have written (R266). -/
theorem prepareWork_error {s t : State} (h : prepareWork s = .error t) :
    ∃ (a b : BitVec 24) (v : Table) (c : Cause) (info : Word), c ≠ .none ∧
      t = ({ s with divA := a, divB := b, sample := v } : State).raiseFault c info ∧
      (s.sample.wf = true → v.wf = true) := by
  simp only [prepareWork, bind, Except.bind, checkRate, checkBaseClk, computeDivA, computeDivB, pure, Except.pure] at h
  cases hr : rateTable s.rateSel with
  | none =>
    simp only [hr, Except.error.injEq] at h
    exact ⟨s.divA, s.divB, s.sample, _, _, by decide, h.symm, id⟩
  | some row =>
    obtain ⟨fs, fbck⟩ := row
    simp only [hr] at h
    by_cases hb : baseClkValid s.baseClk = true
    · simp only [hb, if_true] at h
      cases hA : computeDivisor (F32.flt s.baseClk) (F32.ofNat 4) (F32.ofNat fbck) with
      | low d =>
        simp only [hA, Except.error.injEq] at h
        exact ⟨s.divA, s.divB, s.sample, _, _, by decide, h.symm, id⟩
      | high d =>
        simp only [hA, Except.error.injEq] at h
        exact ⟨s.divA, s.divB, s.sample, _, _, by decide, h.symm, id⟩
      | ok ia fa =>
        simp only [hA] at h
        cases hB : computeDivisor (F32.flt s.baseClk) (F32.ofNat 2) (F32.ofNat fs) with
        | low d =>
          simp only [hB, Except.error.injEq] at h
          exact ⟨d256Of ia fa, s.divB, s.sample, _, _, by decide, h.symm, id⟩
        | high d =>
          simp only [hB, Except.error.injEq] at h
          exact ⟨d256Of ia fa, s.divB, s.sample, _, _, by decide, h.symm, id⟩
        | ok ib fb =>
          simp only [hB] at h
          rcases checkSynthInputs_cases fs { s with divA := d256Of ia fa, divB := d256Of ib fb } with
            ⟨hc, -⟩ | ⟨c, info, hne, hc⟩
          · simp only [hc] at h
            split at h
            · rename_i e he
              simp only [Except.error.injEq] at h
              subst h
              rcases synthFrom_frame (angleStep (F32.flt s.toneFreq) (F32.ofNat fs)) (F32.ofInt s.amplitude.toInt)
                s.tableLen 0 { s with divA := d256Of ia fa, divB := d256Of ib fb } with ⟨v, hv⟩ | ⟨v, k, hv⟩
              · exact absurd (he.symm.trans hv) (by simp)
              · have hee := Except.error.inj (he.symm.trans hv)
                refine ⟨d256Of ia fa, d256Of ib fb, v, _, _, by decide, hee, fun hw => ?_⟩
                obtain ⟨-, -, -, -, -, hwf, -⟩ := synthFrom_error (s := { s with divA := d256Of ia fa, divB := d256Of ib fb })
                  hw he
                rw [hee] at hwf
                exact hwf
            · cases h
          · simp only [hc, Except.error.injEq] at h
            exact ⟨d256Of ia fa, d256Of ib fb, s.sample, c, info, hne, h.symm, id⟩
    · simp only [hb, Bool.false_eq_true, if_false, Except.error.injEq] at h
      exact ⟨s.divA, s.divB, s.sample, _, _, by decide, h.symm, id⟩

/-- What PREPARE completion can do: READY with its results, or FAULT. Everything else stays. -/
theorem completePrepare_cases (s : State) :
    (∃ fs fbck ia fa ib fb v w, rateTable s.rateSel = some (fs, fbck) ∧
      computeDivisor (F32.flt s.baseClk) (F32.ofNat 4) (F32.ofNat fbck) = .ok ia fa ∧
      computeDivisor (F32.flt s.baseClk) (F32.ofNat 2) (F32.ofNat fs) = .ok ib fb ∧
      1 ≤ s.tableLen ∧ s.tableLen ≤ s.params.tableCap ∧ s.ampCeiling.toNat ≤ ceilMax s.is24Bit ∧
      synth fs { s with divA := d256Of ia fa, divB := d256Of ib fb } =
        .ok { s with divA := d256Of ia fa, divB := d256Of ib fb, sample := v } ∧
      completePrepare s =
        { s with divA := d256Of ia fa, divB := d256Of ib fb, sample := v, word := w, valid := true, ctl := .ready } ∧
      encodePass { s with divA := d256Of ia fa, divB := d256Of ib fb, sample := v } =
        { s with divA := d256Of ia fa, divB := d256Of ib fb, sample := v, word := w }) ∨
    (∃ (a b : BitVec 24) (v : Table) (c : Cause) (info : Word), c ≠ .none ∧ (s.sample.wf = true → v.wf = true) ∧
      completePrepare s = ({ s with divA := a, divB := b, sample := v } : State).raiseFault c info) := by
  cases h : prepareWork s with
  | ok t =>
    obtain ⟨fs, fbck, ia, fa, ib, fb, u, hr, -, hA, hB, hc, hu, rfl⟩ := prepareWork_ok h
    left
    rcases synthFrom_frame (angleStep (F32.flt s.toneFreq) (F32.ofNat fs)) (F32.ofInt s.amplitude.toInt)
      s.tableLen 0 { s with divA := d256Of ia fa, divB := d256Of ib fb } with ⟨v, hv⟩ | ⟨v, k, hv⟩
    · have hu' := Except.ok.inj (hu.symm.trans hv)
      obtain ⟨w, hw⟩ := encodeFrom_frame s.tableLen 0 { s with divA := d256Of ia fa, divB := d256Of ib fb, sample := v }
      rcases checkSynthInputs_cases fs { s with divA := d256Of ia fa, divB := d256Of ib fb } with
        ⟨-, h1, h2, h3⟩ | ⟨c, info, -, hc'⟩
      · refine ⟨fs, fbck, ia, fa, ib, fb, v, w, hr, hA, hB, h1, h2, h3, hu.trans (by rw [hu']), ?_, hw⟩
        simp only [completePrepare, h, hu', encodePass]
        rw [show ({ s with divA := d256Of ia fa, divB := d256Of ib fb, sample := v } : State).tableLen = s.tableLen from
          rfl, hw]
      · exact absurd (hc.symm.trans hc') (by simp)
    · exact absurd (hu.symm.trans hv) (by simp)
  | error t =>
    obtain ⟨a, b, v, c, info, hne, heq, hwf⟩ := prepareWork_error h
    exact .inr ⟨a, b, v, c, info, hne, hwf, by simp only [completePrepare, h, heq]⟩

/-- PREPARE completion ends in READY or in FAULT, with the countdown as it was. -/
theorem completePrepare_ends (s : State) :
    ((completePrepare s).ctl = .ready ∨ (completePrepare s).ctl = .fault) ∧ (completePrepare s).busyLeft = s.busyLeft := by
  rcases completePrepare_cases s with ⟨fs, fbck, ia, fa, ib, fb, v, w, -, -, -, -, -, -, -, h, -⟩ | ⟨a, b, v, c, info, -, -, h⟩ <;>
    simp [h]

/-! ### The BUSY countdown -/

/-- A tick of BUSY before the last takes 1 off busy_left (43_sequencers.md R204). -/
theorem countdown_wait {s : State} (hc : s.ctl = .busy) (hb : 2 ≤ s.busyLeft) :
    s.countdown = { s with busyLeft := s.busyLeft - 1 } := by
  simp [State.countdown, hc, show s.busyLeft - 1 ≠ 0 by omega]

/-- The last tick of BUSY completes the PREPARE (43_sequencers.md R204). -/
theorem countdown_last {s : State} (hc : s.ctl = .busy) (hb : s.busyLeft = 1) :
    s.countdown = completePrepare { s with busyLeft := 0 } := by
  simp [State.countdown, hc, hb]

end Sys2Proof.Machine
end

