-- ==== Sys2Proof/Laws/Steps.lean ====
section
/-! SUPPORT. Laws/Steps.lean: what each shared operation of a step can do, said once. -/
namespace Sys2Proof.Machine

/-! ### Outcomes -/

@[simp] theorem andThen_next (s : State) (f : State → Result) : andThen (.next s) f = f s := rfl
@[simp] theorem andThen_fault (e : Fault) (f : State → Result) : andThen (.fault e) f = .fault e := rfl
@[simp] theorem andThen_refused (e : Refusal) (f : State → Result) : andThen (.refused e) f = .refused e := rfl

/-- A sequence answers a next state exactly when both parts do. -/
theorem andThen_eq_next {r : Result} {f : State → Result} {t : State} :
    andThen r f = .next t ↔ ∃ u, r = .next u ∧ f u = .next t := by
  cases r <;> simp

/-! ### Bytes and words -/

@[simp] theorem wordOfBytes_wordBytes (w : Word) :
    wordOfBytes (byteOf w 0) (byteOf w 1) (byteOf w 2) (byteOf w 3) = w := by
  apply BitVec.eq_of_getLsbD_eq
  intro i hi
  simp only [wordOfBytes, byteOf, BitVec.getLsbD_append, BitVec.getLsbD_extractLsb']
  rcases (show i < 8 ∨ (8 ≤ i ∧ i < 16) ∨ (16 ≤ i ∧ i < 24) ∨ (24 ≤ i ∧ i < 32) by omega) with h | h | h | h
  · simp [h]
  · simp [show ¬ i < 8 by omega, show i - 8 < 8 by omega, show 8 + (i - 8) = i by omega]
  · simp [show ¬ i < 8 by omega, show ¬ i - 8 < 8 by omega, show i - 8 - 8 < 8 by omega,
      show 16 + (i - 8 - 8) = i by omega]
  · simp [show ¬ i < 8 by omega, show ¬ i - 8 < 8 by omega, show ¬ i - 8 - 8 < 8 by omega,
      show i - 8 - 8 - 8 < 8 by omega, show 24 + (i - 8 - 8 - 8) = i by omega]

/-- Four bytes of a word decode as the host command word. -/
@[simp] theorem decodeBytes_wordBytes (w : Word) : decodeBytes (wordBytes w) = decodeHcmd w := by
  simp [decodeBytes, wordBytes]

@[simp] theorem decodeBytes_singleton (u : Byte) : decodeBytes [u] = decodeUop u := rfl

/-- A byte decodes to a micro-instruction or to nothing. -/
theorem format_of_decodeUop {u : Byte} {i : Instr} (h : decodeUop u = .ok i) : i.format = .uop := by
  unfold decodeUop at h
  split at h
  · cases h
  · split at h <;> cases h <;> rfl

/-- A host command word decodes to a host command or to nothing. -/
theorem format_of_decodeHcmd {w : Word} {i : Instr} (h : decodeHcmd w = .ok i) : i.format = .hcmd := by
  unfold decodeHcmd at h
  split at h <;> cases h <;> rfl

/-! ### Instructions always answer -/

/-- Every instruction answers a next state in every state. -/
theorem exec_answers (i : Instr) (s : State) : ∃ t, exec i s = .next t := by
  cases i <;> simp only [exec, execNop, execPrepare, execStart, execSetclk, execRefill, execShift1] <;>
    (repeat' split) <;> exact ⟨_, rfl⟩

/-! ### The refill -/

/-- The reload touches OSR, OSR_CNT, TXQ and UNF only; UNF only on an underrun while STREAMING. -/
theorem reload_cases (s : State) :
    (∃ w rest, s.txq = w :: rest ∧ s.reload = { s with osr := w, txq := rest, osrCnt := 0 }) ∨
    (s.txq = [] ∧ s.reload = { s with osr := 0, osrCnt := 0, unf := s.unf || s.ctl == .streaming }) := by
  cases h : s.txq with
  | cons w rest => exact .inl ⟨w, rest, rfl, by simp [State.reload, h]⟩
  | nil =>
    refine .inr ⟨rfl, ?_⟩
    by_cases hc : s.ctl = .streaming <;> simp [State.reload, h, hc, State.setUnf]

/-! ### Micro-instructions -/

/-- What a micro-instruction leaves unchanged besides the registers: the other sequencer, and of its own sequencer the run
bit and the accumulator. -/
structure MicroFrame (s t : State) : Prop where
  control : s.SameControl t
  active : t.active = s.active
  other : ∀ Y, Y ≠ s.active → t.seq Y = s.seq Y
  own : (t.seq s.active).run = (s.seq s.active).run ∧ (t.seq s.active).acc = (s.seq s.active).acc

theorem sameControl_retire (s : State) (d : BitVec 2) : s.SameControl (s.retire d) := by
  simp [State.SameControl]

theorem microFrame_retire {s t : State} (hc : s.SameControl t) (ha : t.active = s.active)
    (hs : ∀ Y, t.seq Y = s.seq Y) (d : BitVec 2) : MicroFrame s (t.retire d) where
  control := by simpa [State.SameControl] using hc
  active := by simpa using ha
  other := by
    have hA : t.seqA = s.seqA := hs .A
    have hB : t.seqB = s.seqB := hs .B
    intro Y hY
    cases Y <;> cases h : s.active <;> simp_all
  own := by
    have hA : t.seqA = s.seqA := hs .A
    have hB : t.seqB = s.seqB := hs .B
    cases h : s.active <;> simp_all

/-- Every micro-instruction keeps the frame. -/
theorem exec_microFrame {i : Instr} {s t : State} (hi : i.format = .uop) (h : exec i s = .next t) :
    MicroFrame s t := by
  cases i <;> simp only [Instr.format, reduceCtorEq] at hi
  case setclk side d =>
    simp only [exec, execSetclk, Host.Outcome.next.injEq] at h
    subst h
    exact microFrame_retire (s := s) (by simp [State.SameControl]) (by simp) (by intro Y; cases Y <;> simp) d
  case refill side d =>
    simp only [exec, execRefill, Host.Outcome.next.injEq] at h
    subst h
    split
    · rcases reload_cases (s.driveBck side) with ⟨w, rest, -, hr⟩ | ⟨-, hr⟩ <;> rw [hr] <;>
        exact microFrame_retire (s := s) (by simp [State.SameControl]) (by rfl) (by intro Y; cases Y <;> simp) d
    · exact microFrame_retire (s := s) (by simp [State.SameControl]) (by rfl) (by intro Y; cases Y <;> simp) d
  case shift1 side d =>
    simp only [exec, execShift1, Host.Outcome.next.injEq] at h
    subst h
    exact microFrame_retire (s := s) (by simp [State.SameControl]) (by simp) (by intro Y; cases Y <;> simp) d

/-- A micro-step that answers was a delay tick of X, or `exec` of the micro-instruction at its pc. -/
theorem microStep_cases {X : SeqId} {s t : State} (h : microStep X s = .next t) :
    ((s.seq X).dly ≠ 0 ∧ t = s.setSeq X { s.seq X with dly := (s.seq X).dly - 1 }) ∨
    ((s.seq X).dly = 0 ∧ ∃ i, decodeUop (romFetch (s.rom X) (s.seq X).pc) = .ok i ∧ i.format = .uop ∧
      exec i { s with active := X } = .next t) := by
  unfold microStep at h
  split at h
  · rename_i hd
    exact .inl ⟨hd, by simpa using h.symm⟩
  · rename_i hd
    simp only [execWord, decodeBytes_singleton] at h
    split at h
    · rename_i i hi
      exact .inr ⟨by simpa using hd, i, hi, format_of_decodeUop hi, h⟩
    · cases h

/-- What any micro-step leaves unchanged. -/
structure StepFrame (X : SeqId) (s t : State) : Prop where
  control : s.SameControl t
  other : ∀ Y, Y ≠ X → t.seq Y = s.seq Y
  own : (t.seq X).run = (s.seq X).run ∧ (t.seq X).acc = (s.seq X).acc

theorem microStep_frame {X : SeqId} {s t : State} (h : microStep X s = .next t) : StepFrame X s t := by
  rcases microStep_cases h with ⟨-, rfl⟩ | ⟨-, i, -, hf, hx⟩
  · cases X <;> exact ⟨by simp [State.SameControl], by intro Y hY; cases Y <;> simp_all, by simp⟩
  · have hm := exec_microFrame hf hx
    refine ⟨by simpa [State.SameControl] using hm.control, ?_, ?_⟩
    · intro Y hY
      have := hm.other Y hY
      cases Y <;> simpa using this
    · have := hm.own
      cases X <;> simpa using this

theorem microStepIf_frame {b : Bool} {X : SeqId} {s t : State} (h : microStepIf b X s = .next t) : StepFrame X s t := by
  cases b
  · simp only [microStepIf, Bool.false_eq_true, if_false, Host.Outcome.next.injEq] at h
    subst h
    exact ⟨by simp [State.SameControl], fun _ _ => rfl, rfl, rfl⟩
  · exact microStep_frame (by simpa [microStepIf] using h)

/-! ### Dividers -/

/-- The dividers write the accumulators of running sequencers only. -/
theorem tickFront_eq (s : State) :
    s.tickFront = { s.countdown with
      seqA := (if s.countdown.seqA.run then
        { s.countdown.seqA with acc := dividerNext s.countdown.divA s.countdown.seqA.acc } else s.countdown.seqA),
      seqB := (if s.countdown.seqB.run then
        { s.countdown.seqB with acc := dividerNext s.countdown.divB s.countdown.seqB.acc } else s.countdown.seqB) } := by
  simp only [State.tickFront, State.divide, State.setSeq, seq_A, seq_B, d256_A, d256_B]
  by_cases hA : s.countdown.seqA.run = true <;> by_cases hB : s.countdown.seqB.run = true <;> simp [hA, hB]

/-- Steps 1 and 2 of a base tick with both sequencers running and no PREPARE pending: the two accumulators, and nothing
else. -/
theorem tickFront_running {s : State} (hb : s.ctl ≠ .busy) (hA : s.seqA.run = true) (hB : s.seqB.run = true) :
    s.tickFront = { s with
      seqA := { s.seqA with acc := dividerNext s.divA s.seqA.acc },
      seqB := { s.seqB with acc := dividerNext s.divB s.seqB.acc } } := by
  have hc : s.countdown = s := by simp [State.countdown, hb]
  rw [tickFront_eq, hc, if_pos hA, if_pos hB]

/-- Steps 1 and 2 of a base tick with neither sequencer running after the countdown: the countdown alone. -/
theorem tickFront_stopped {s : State} (hA : s.countdown.seqA.run = false) (hB : s.countdown.seqB.run = false) :
    s.tickFront = s.countdown := by
  rw [tickFront_eq]
  simp [hA, hB]

/-! ### The fixed micro-programs -/

/-- What SEQ_A fetches from its fixed store (30_encoding.md R106). -/
theorem decodeUop_romA (pc : BitVec 1) :
    decodeUop (romFetch romAInit pc) = .ok (if pc = 0 then .refill false 1 else .shift1 true 1) := by
  rcases show pc = 0 ∨ pc = 1 by revert pc; decide with rfl | rfl <;> rfl

/-- What SEQ_B fetches from its fixed store (30_encoding.md R106). -/
theorem decodeUop_romB (pc : BitVec 1) :
    decodeUop (romFetch romBInit pc) = .ok (.setclk (pc == 0) 0) := by
  rcases show pc = 0 ∨ pc = 1 by revert pc; decide with rfl | rfl <;> rfl

/-! ### Settle step and FEEDER -/

/-- The settle step: not SETTLING, the end of the delay, or one more tick of it (R233). -/
theorem settle_cases (s : State) :
    (s.ctl ≠ .settling ∧ s.settle = s) ∨
    (s.ctl = .settling ∧ s.settleCnt = s.params.settleTicks ∧ s.settle = { s with ctl := .streaming }) ∨
    (s.ctl = .settling ∧ s.settleCnt ≠ s.params.settleTicks ∧ s.settle = { s with settleCnt := s.settleCnt + 1 }) := by
  unfold State.settle
  by_cases h : s.ctl = .settling
  · by_cases h' : s.settleCnt = s.params.settleTicks <;> simp [h, h']
  · simp [h]

/-- FEEDER answers by doing nothing or by one push (R231). -/
theorem feed_cases {s t : State} (h : feed s = .next t) :
    (¬ (s.ctl = .streaming ∧ s.qLevel < s.params.txqDepth) ∧ t = s) ∨
    (s.ctl = .streaming ∧ s.qLevel < s.params.txqDepth ∧ s.j < s.params.tableCap ∧ s.tableLen ≠ 0 ∧
      t = { s with txq := s.txq ++ [s.word.read s.j], j := (s.j + 1) % s.tableLen }) := by
  unfold feed at h
  split at h
  · rename_i hs
    simp only [memRead] at h
    by_cases hj : s.j < s.params.tableCap
    · simp only [hj, if_true] at h
      split at h
      · cases h
      · rename_i hl
        refine .inr ⟨hs.1, hs.2, hj, hl, ?_⟩
        simpa [State.qPush] using h.symm
    · simp [hj] at h
  · rename_i hs
    exact .inl ⟨hs, by simpa using h.symm⟩

/-! ### The base tick and the step -/

/-- A base tick that answers, as its parts in order (R204). -/
theorem baseTick_cases {s t : State} (h : baseTick s = .next t) :
    ∃ u v, microStepIf (s.countdown.fires .B) .B s.tickFront = .next u ∧
      microStepIf (s.countdown.fires .A) .A u = .next v ∧ feed v.settle = .next t := by
  obtain ⟨u, hu, h⟩ := andThen_eq_next.1 h
  obtain ⟨v, hv, h⟩ := andThen_eq_next.1 h
  exact ⟨u, v, hu, hv, h⟩

/-- A base tick that leaves both sequencers stopped and STATE outside SETTLING and STREAMING is its countdown alone. -/
theorem baseTick_stopped {s : State} (hA : s.countdown.seqA.run = false) (hB : s.countdown.seqB.run = false)
    (hc : s.countdown.ctl.started = false) : baseTick s = .next s.countdown := by
  have hs : s.countdown.settle = s.countdown := by
    simp only [State.settle]
    split
    · rename_i h
      simp [h, Ctl.started] at hc
    · rfl
  have hf : feed s.countdown = .next s.countdown := by
    simp only [feed]
    split
    · rename_i h
      simp [h.1, Ctl.started] at hc
    · rfl
  simp [baseTick, tickFront_stopped hA hB, microStepIf, State.fires, hA, hB, hs, hf]

/-- A step is a clock edge or an event of the outside. -/
theorem step_cases {s t : State} (h : step s = .next t) :
    (s.edgeNext ∧ clockEdge { s with host := s.host.tail } = .next t) ∨
    (∃ e rest, s.host = e :: rest ∧ e ≠ .edge ∧ ¬ s.edgeNext ∧ hostEvent e { s with host := rest } = .next t) := by
  unfold step at h
  split at h
  · rename_i hh
    refine .inl ⟨.inl hh, ?_⟩
    have : ({ s with host := s.host.tail } : State) = s := by cases s; simp_all
    rwa [this]
  · rename_i e rest hh
    by_cases he : e = .edge
    · subst he
      exact .inl ⟨.inr (by simp [hh]), by simpa [hh, hostEvent] using h⟩
    · exact .inr ⟨e, rest, hh, he, by simp [State.edgeNext, hh, he], h⟩

/-- A clock edge that answers is a reset or a base tick. -/
theorem clockEdge_cases {s t : State} (h : clockEdge s = .next t) :
    (s.rst = true ∧ t = s.resetEdge) ∨ (s.rst = false ∧ baseTick s = .next t) := by
  unfold clockEdge at h
  split at h
  · rename_i hr
    exact .inl ⟨hr, by simpa using h.symm⟩
  · rename_i hr
    exact .inr ⟨by simpa using hr, h⟩

/-- A host access that answers is admitted, outside reset, and does what it does. -/
theorem hostAccess_cases {bits offset : Nat} {act : State → Result} {s t : State}
    (h : hostAccess bits offset act s = .next t) : s.rst = false ∧ admitted bits offset = true ∧ act s = .next t := by
  unfold hostAccess at h
  split at h
  · cases h
  · rename_i hr
    split at h
    · rename_i ha
      exact ⟨by simpa using hr, ha, h⟩
    · cases h

/-- An admitted read that answers changes the port's data only. -/
theorem hostRead_cases {offset : Nat} {s t : State} (h : hostRead offset s = .next t) :
    ∃ v, t = { s with readData := v } := by
  unfold hostRead at h
  split at h
  · exact ⟨0, by simpa using h.symm⟩
  · split at h
    · rename_i v _
      exact ⟨v, by simpa using h.symm⟩
    · cases h

/-- What a configuration write can do (R235). -/
theorem configWrite_cases (store : State → State) (s : State) :
    (s.ctl = .idle ∧ configWrite store s = store s) ∨
    (s.ctl = .ready ∧ configWrite store s = { store s with ctl := .idle, valid := false }) ∨
    (s.ctl ≠ .idle ∧ s.ctl ≠ .ready ∧ configWrite store s = s.setIgn) := by
  unfold configWrite
  cases h : s.ctl <;> simp

/-- What a write to CMD can do: the three commands accepted, BAD_SEQ, BAD_CMD, a NOP, or IGN (R237 to R241). -/
theorem writeCmd_cases {w : Word} {s t : State} (h : writeCmd w s = .next t) :
    (s.ctl.accepts = true ∧ t = s) ∨
    (s.ctl.accepts = true ∧ t = s.acceptPrepare) ∨
    (s.ctl = .ready ∧ t = s.jointStart) ∨
    (s.ctl = .idle ∧ t = s.raiseFault .badSeq 0x2) ∨
    (s.ctl.accepts = true ∧ t = s.raiseFault .badCmd ((hcmdOpcode w).setWidth 32)) ∨
    (s.ctl.accepts = false ∧ t = s.setIgn) := by
  simp only [writeCmd, decodeBytes_wordBytes] at h
  split at h
  · rename_i i hi
    have hf := format_of_decodeHcmd hi
    cases i <;> simp only [Instr.format, reduceCtorEq] at hf
    · simp only [exec, execNop] at h
      cases ha : s.ctl.accepts <;> simp_all
    · simp only [exec, execPrepare] at h
      cases ha : s.ctl.accepts <;> simp_all
    · simp only [exec, execStart] at h
      cases hc : s.ctl <;> simp_all [Ctl.accepts]
  · simp only [reservedCommand, Host.Outcome.next.injEq] at h
    cases ha : s.ctl.accepts <;> simp_all

/-- What an admitted write can do, register by register (R235 to R242): nothing, a configuration write, a command, or the
two registers that every STATE accepts. -/
theorem hostWrite_cases {offset : Nat} {w : Word} {s t : State} (h : hostWrite offset w s = .next t) :
    t = s ∨ t = { s with tblIndex := w } ∨ t = { s with encIn := w } ∨
    (regAt offset = some .cmd ∧ writeCmd w s = .next t) ∨
    t = configWrite (fun t => { t with ctrl := w.setWidth 4 }) s ∨
    t = configWrite (fun t => { t with baseClk := w }) s ∨
    t = configWrite (fun t => { t with toneFreq := w }) s ∨
    t = configWrite (fun t => { t with amplitude := w }) s ∨
    t = configWrite (fun t => { t with ampCeiling := w }) s ∨
    t = configWrite (fun t => { t with tableSize := w }) s := by
  unfold hostWrite at h
  split at h
  · cases h
    exact .inl rfl
  · rename_i r hr
    cases r <;> simp only [writeReg, Host.Outcome.next.injEq] at h <;> first
      | (subst h; simp)
      | exact .inr (.inr (.inr (.inl ⟨hr, h⟩)))

end Sys2Proof.Machine
end

