-- ==== Sys2Proof/Tests/Slice0.lean ====
section
/-! SUPPORT. Tests/Slice0.lean: the model's own tests. Expected values come from the spec (30_encoding.md R101, R102, R106
and 95_test_vectors.md); each theorem named `witness_<Name>` shows concrete states and operands that meet the hypotheses of
`Obligations.<Name>`, one for each clause that has some. -/
namespace Sys2Proof.Tests
open Sys2Proof.Machine

/-! ### Helpers -/

/-- A next state of which `p` holds. -/
def after (r : Result) (p : State → Bool) : Bool :=
  match r with
  | .next t => p t
  | .fault _ | .refused _ => false

theorem exists_of_after {r : Result} {p : State → Bool} (h : after r p = true) : ∃ t, r = .next t ∧ p t = true := by
  cases r <;> simp_all [after]

theorem answers_of_after {r : Result} {p : State → Bool} (h : after r p = true) : ∃ t, r = .next t :=
  (exists_of_after h).imp fun _ h => h.1

/-- Whether a part of PREPARE succeeded. -/
def succeeded (r : Except State State) : Bool :=
  match r with
  | .ok _ => true
  | .error _ => false

theorem ok_of_succeeded {r : Except State State} (h : succeeded r = true) : ∃ t, r = .ok t := by
  cases r <;> simp_all [succeeded]

theorem error_of_succeeded {r : Except State State} (h : succeeded r = false) : ∃ t, r = .error t := by
  cases r <;> simp_all [succeeded]

/-- Checks that pass leave the state alone. -/
theorem checks_pass {fs : Nat} {s : State} (h : succeeded (checkSynthInputs fs s) = true) : checkSynthInputs fs s = .ok s := by
  rcases checkSynthInputs_cases fs s with ⟨hc, -⟩ | ⟨c, info, -, hc⟩
  · exact hc
  · simp [hc, succeeded] at h

/-- The parameters of P3 (95_test_vectors.md). -/
def params3 : Params := ⟨4, 10, 1920, .minus⟩

/-- Reset, with the parameters of P3 and a PREPARE_LATENCY of 1. -/
def quiet : State := { State.reset with params := params3, latencyDraw := 0 }

/-- P3's configuration in IDLE. -/
def configured : State :=
  { quiet with
    ctrl := 0x1, baseClk := 0x4AFA0000, toneFreq := 0x45FA0000, amplitude := 1000, ampCeiling := 0x007FFFFE, tableSize := 4 }

/-- P3's PREPARE in its last tick of BUSY. -/
def busy : State := { configured with ctl := .busy, busyLeft := 1 }

/-- P3 in READY. -/
def ready : State :=
  { configured with
    ctl := .ready, valid := true, divA := 0x100, divB := 0x8000,
    sample := [(1, 1005), (2, 524), (3, 6637)],
    word := [(1, 0xB7C00000), (2, 0x30400000), (3, 0xB7980000)] }

/-- P3 right after START. -/
def settling : State := ready.jointStart

/-- P3's registers in STREAMING, with one word queued and SEQ_A about to refill. -/
def streaming : State :=
  { settling with
    ctl := .streaming, settleCnt := 10, txq := [0], j := 1,
    seqA := { pc := 0, dly := 0, run := true, acc := 0 }, seqB := { pc := 1, dly := 0, run := true, acc := 0x10 } }

/-- FAULT after a reserved command. -/
def faulted : State := quiet.raiseFault .badCmd 7

/-- A state with the schedule `l` of outside events. -/
def withHost (s : State) (l : List HostEvent) : State := { s with host := l }

theorem quiet_inv : quiet.Inv := by constructor <;> decide
theorem busy_inv : busy.Inv := by constructor <;> decide
theorem ready_inv : ready.Inv := by constructor <;> decide
theorem settling_inv : settling.Inv := by constructor <;> decide
theorem streaming_inv : streaming.Inv := by constructor <;> decide
theorem faulted_inv : faulted.Inv := by constructor <;> decide

/-! ### WellFormed: each check refuses an ill-formed term -/

theorem test_wf_command_is_no_uop : Instr.wf .uop .nop = false := by decide
theorem test_wf_uop_is_no_command : Instr.wf .hcmd (.setclk true 0) = false := by decide
theorem test_wf_program_refuses_command : MicroProgram.wf ⟨.refill false 1, .start⟩ = false := by decide
theorem test_wf_seqA_refuses_setclk : MicroProgram.fitsSeqA ⟨.setclk true 0, .shift1 true 1⟩ = false := by decide
theorem test_wf_seqB_refuses_refill : MicroProgram.fitsSeqB ⟨.setclk true 0, .refill false 0⟩ = false := by decide
/-- The two programs of R106 pass. -/
theorem test_wf_fixed_programs :
    MicroProgram.wf ⟨.refill false 1, .shift1 true 1⟩ = true ∧ MicroProgram.fitsSeqA ⟨.refill false 1, .shift1 true 1⟩ = true ∧
    MicroProgram.wf ⟨.setclk true 0, .setclk false 0⟩ = true ∧ MicroProgram.fitsSeqB ⟨.setclk true 0, .setclk false 0⟩ = true := by
  decide

/-! ### Decoding: words written out from R101, R102 and R106 -/

/-- R101: bits [3:0] = 0000; the bits above are ignored. -/
theorem test_decode_nop : decodeBytes [0x00, 0x00, 0x00, 0x00] = .ok .nop ∧ decodeBytes [0xF0, 0xFF, 0xFF, 0xFF] = .ok .nop :=
  ⟨rfl, rfl⟩
/-- R101: bits [3:0] = 0001. -/
theorem test_decode_prepare : decodeBytes [0x01, 0x00, 0x00, 0x00] = .ok .prepare := rfl
/-- R101: bits [3:0] = 0010. -/
theorem test_decode_start : decodeBytes [0x02, 0x00, 0x00, 0x00] = .ok .start := rfl
/-- R102: SIDE 1, OP 00, DELAY 11, RSV 000 (V-SEQ-1d); R106: 0x80. -/
theorem test_decode_setclk : decodeBytes [0b10011000] = .ok (.setclk true 3) ∧ decodeBytes [0x80] = .ok (.setclk true 0) :=
  ⟨rfl, rfl⟩
/-- R102: SIDE 0, OP 01, DELAY 01, RSV 000 (V-SEQ-1a). -/
theorem test_decode_refill : decodeBytes [0b00101000] = .ok (.refill false 1) := rfl
/-- R102: SIDE 1, OP 10, DELAY 01, RSV 000 (V-SEQ-1b). -/
theorem test_decode_shift1 : decodeBytes [0b11001000] = .ok (.shift1 true 1) := rfl
/-- V-CTL-5's opcode, V-SEQ-1e and a length of no format. -/
theorem test_decode_rejects :
    decodeBytes [0xF3, 0xFF, 0xFF, 0xFF] = .error (.reservedOpcode 3) ∧ decodeBytes [0x60] = .error .reservedOp ∧
    decodeBytes [0x81] = .error .reservedRsv ∧ decodeBytes [0x00, 0x00] = .error .badLength :=
  ⟨rfl, rfl, rfl, rfl⟩
/-- R106: the encoder gives the ROM words back. -/
theorem test_encode_rom_words :
    encode (.refill false 1) = [0x28] ∧ encode (.shift1 true 1) = [0xC8] ∧ encode (.setclk true 0) = [0x80] ∧
    encode (.setclk false 0) = [0x00] := ⟨rfl, rfl, rfl, rfl⟩
/-- No word matches two rows of the opcode table. -/
theorem test_opcode_rows_disjoint : opcodeRows.Pairwise (fun r q => r.disjoint q = true) := by decide
/-- The words of spec/opcode_table.json's rows as it numbers them. -/
theorem test_decodeTableWord :
    decodeTableWord 32 0x0 = some .nop ∧ decodeTableWord 32 0x1 = some .prepare ∧ decodeTableWord 32 0x2 = some .start ∧
    decodeTableWord 8 0x00 = some (.setclk false 0) ∧ decodeTableWord 8 0x20 = some (.refill false 0) ∧
    decodeTableWord 8 0x40 = some (.shift1 false 0) := ⟨rfl, rfl, rfl, rfl, rfl, rfl⟩
/-- R111: `shift side 1 [1]` assembles to 0xC8, and `nop side 1` is `setclk side 1`. -/
theorem test_assemble :
    AsmLine.word ⟨.shift, true, some 1⟩ = 0xC8 ∧ AsmLine.word ⟨.nop, true, none⟩ = 0x80 ∧
    assembleRom ⟨.refill, false, some 1⟩ ⟨.shift, true, some 1⟩ = romAInit := by decide

/-! ### One step each -/

/-- V-CTL-2: NOP in IDLE leaves STATUS 0; V-CTL-18: NOP in READY changes nothing. -/
theorem test_nop : exec .nop quiet = .next quiet ∧ exec .nop ready = .next ready := ⟨rfl, rfl⟩
/-- The table of R234: NOP in FAULT sets IGN. -/
theorem test_nop_ignored : after (exec .nop faulted) (fun t => t.statusWord == 0x00000115) = true := by decide
/-- V-CTL-6: PREPARE gives STATUS 0x00000001. -/
theorem test_prepare_accept :
    after (exec .prepare ready) (fun t => t.statusWord == 0x00000001 && t.divA == 0 && t.divB == 0) = true := by decide
/-- P3: the base tick that completes PREPARE (STATUS, divisors, SAMPLE and WORD as P3 lists them). -/
theorem test_prepare_complete :
    after (step busy) (fun t => t.statusWord == 0x00000402 && t.divA == 0x100 && t.divB == 0x8000 &&
      t.sample == [(1, 1005), (2, 524), (3, 6637)] &&
      t.word == [(1, 0xB7C00000), (2, 0x30400000), (3, 0xB7980000)]) = true := by decide +kernel
/-- V-CTL-19: START in READY gives STATUS 0x00000403; P3: acc_A = 0, acc_B = 32 512. -/
theorem test_start :
    after (exec .start ready) (fun t => t.statusWord == 0x00000403 && t.seqA.acc == 0 && t.seqB.acc == 32512) = true := by
  decide
/-- V-CTL-3: START in IDLE raises BAD_SEQ. -/
theorem test_start_idle :
    after (exec .start quiet) (fun t => t.statusWord == 0x00000025 && t.faultInfo == 2) = true := by decide
/-- V-SEQ-1f. -/
theorem test_setclk_B : after (exec (.setclk true 0) { settling with active := .B }) (fun t => t.lrck) = true := by decide
/-- R194: CLK_A is BCK. -/
theorem test_setclk_A :
    after (exec (.setclk false 2) { settling with active := .A })
      (fun t => t.bck == false && t.lrck == false && t.seqA.pc == 1 && t.seqA.dly == 2) = true := by decide
/-- V-SEQ-1h. -/
theorem test_refill_pop :
    after (exec (.refill false 1) { settling with txq := [0xAAAAAAAA, 0x1] })
      (fun t => t.bck == false && t.osr == 0xAAAAAAAA && t.osrCnt == 0 && t.txq == [0x1]) = true := by decide
/-- V-SEQ-1j. -/
theorem test_refill_underrun :
    after (exec (.refill false 1) { streaming with txq := [], osr := 1 })
      (fun t => t.osr == 0 && t.osrCnt == 0 && t.unf) = true := by decide
/-- V-SEQ-1k. -/
theorem test_shift1 :
    after (exec (.shift1 true 1) { settling with bck := false, osr := 0xB7C00000, osrCnt := 0 })
      (fun t => t.bck && t.data == false && t.osr == 0x5BE00000 && t.osrCnt == 1) = true := by decide
/-- V-SEQ-1l. -/
theorem test_shift1_last :
    after (exec (.shift1 true 1) { settling with osr := 1, osrCnt := 31 })
      (fun t => t.data && t.osr == 0 && t.osrCnt == 32) = true := by decide

/-- V-CTL-5: a reserved command. -/
theorem test_reserved_command :
    after (step (withHost quiet [.write 32 0x18 0xFFFFFFF3])) (fun t => t.statusWord == 0x00000015 && t.faultInfo == 3) =
      true := by decide
/-- P3, tick 1: LRCK rises and BCK falls in the first tick after START, with an underrun reload that does not set UNF. -/
theorem test_first_tick :
    after (step settling) (fun t => t.lrck && t.bck == false && t.osrCnt == 0 && t.unf == false && t.statusWord == 0x403) =
      true := by decide
/-- V-CTL-14 and the port's data. -/
theorem test_ctrl_reserved_bits :
    after (andThen (hostWrite 0x00 0xFFFFFFFF quiet) (hostRead 0x00)) (fun t => t.readData == 0x0000000F) = true := by decide
/-- The two placements of withFetchWord: START as a command in IDLE (V-CTL-3), SETCLK side 0 on SEQ_A. -/
theorem test_withFetchWord :
    after (step (State.reset.withFetchWord 32 0x2)) (fun t => t.ctl == .fault && t.cause == .badSeq) = true ∧
    after (step (State.reset.withFetchWord 8 0x00)) (fun t => t.bck == false) = true := by decide

/-! ### Shared operations on values of the spec -/

/-- V-DIV-5, V-DIV-21. -/
theorem test_divisor :
    computeDivisor (F32.flt 0x4CEE6B28) (F32.ofNat 4) (F32.ofNat 12288000) = .ok 2 139 ∧
    computeDivisor (F32.flt 0x4AFA0000) (F32.ofNat 4) (F32.ofNat 12288000) = .low 0x3E2AAAAB := by decide +kernel
/-- V-DIV-23 to V-DIV-25. -/
theorem test_divisor_corners :
    splitDivisor (F32.flt 0x477FFFFF) = .ok 65535 255 ∧ splitDivisor (F32.flt 0x47800000) = .high 0x47800000 ∧
    splitDivisor (F32.flt 0x3F7FFFFF) = .low 0x3F7FFFFF := by decide +kernel
/-- V-SYN-3: entry 480 is a tie that rounds away from zero, entry 496 passes the ceiling of V-SYN-5. -/
theorem test_sample_tie :
    sampleAt .minus (F32.flt 0x3C20D97C) (F32.ofInt 1000000) 8388606 480 = some 6636668 ∧
    sampleAt .minus (F32.flt 0x3C20D97C) (F32.ofInt 1000000) 8388606 496 = none := by decide +kernel
/-- V-SYN-2 (sigma +1), entry 3, and V-SYN-9 (A = −1000), entry 1. -/
theorem test_sample_sign :
    sampleAt .plus (F32.flt 0x3FC90FDB) (F32.ofInt 1000) 8388606 3 = some 41519 ∧
    sampleAt .minus (F32.flt 0x3FC90FDB) (F32.ofInt (-1000)) 8388606 1 = some (-1005) := by decide +kernel
/-- R150's pseudocode and R155 on an overflow (log entry 22): F = 125 · 2^119 makes step infinite, so index 0 has no sample; step
= 10^9 makes p5 infinite at index 1, so A = 0 has no sample there, and has 0 at index 0. -/
theorem test_sample_overflow :
    sampleAt .minus (angleStep (F32.flt 0x7E7A0000) (F32.ofNat 32000)) (F32.ofInt 1000) 8388606 0 = none ∧
    sampleAt .minus (F32.flt 0x4E6E6B28) (F32.ofInt 0) 8388606 1 = none ∧
    sampleAt .minus (F32.flt 0x4E6E6B28) (F32.ofInt 0) 8388606 0 = some 0 := by decide +kernel
/-- V-SYN-12. -/
theorem test_round_half_away :
    (F32.flt 0x40200000).roundHalfAway = 3 ∧ (F32.flt 0xC0200000).roundHalfAway = -3 ∧
    (F32.flt 0x3EFFFFFF).roundHalfAway = 0 ∧ (F32.flt 0xBF000000).roundHalfAway = -1 := by decide +kernel
/-- V-ENC-10 in 24-bit mode, V-ENC-14 in both. -/
theorem test_encoder :
    encodeSample 0xFFFFFC13 true = 0xC83FFFFF ∧ encodeSample 0x01000000 true = 0x00000080 ∧
    encodeSample 0x01000000 false = 0x00000080 := by decide +kernel
/-- V-SEQ-2, D256 = 325: ticks at 0, 2, 3, 4, 6. -/
theorem test_divider :
    (List.range 7).filter (fun k => dividerFires 325 (dividerAfter 325 k)) = [0, 2, 3, 4, 6] := by decide

/-! ### Witnesses: encoding and steps -/

theorem witness_DecodeEncodeAgree :
    decodeBytes [0x28] = .ok (.refill false 1) ∧ decodeBytes (wordBytes 0xFFFFFFF2) = .ok .start := ⟨rfl, rfl⟩

theorem witness_HostCommandDecodesByOpcode :
    (0xFFFFFFF0 : Word).extractLsb' 0 4 = 0x0 ∧ (0x00000011 : Word).extractLsb' 0 4 = 0x1 ∧
    (0x80000002 : Word).extractLsb' 0 4 = 0x2 ∧ 3 ≤ ((0x00000003 : Word).extractLsb' 0 4).toNat ∧
    3 ≤ ((0xFFFFFFFF : Word).extractLsb' 0 4).toNat := by decide

theorem witness_UopWordSelectsInstruction :
    (0x98 : Byte) &&& 0x67 = 0x00 ∧ (0xB8 : Byte) &&& 0x67 = 0x20 ∧ (0xD8 : Byte) &&& 0x67 = 0x40 := by decide

theorem witness_StepRunsHostCommand :
    let s := withHost ready [.write 32 0x18 0xFFFFFFF1]
    s.rst = false ∧ s.host = .write 32 0x18 0xFFFFFFF1 :: [] ∧ decodeBytes (wordBytes 0xFFFFFFF1) = .ok .prepare :=
  ⟨rfl, rfl, rfl⟩

/-- One state for each of the three clauses: only SEQ_A fires, only SEQ_B fires, both fire. -/
theorem witness_StepRunsMicroInstruction :
    let onlyB : State := { settling with divA := 0x200, seqA := { settling.seqA with acc := 0 } }
    (streaming.rst = false ∧ streaming.edgeNext ∧ streaming.ctl ≠ .busy ∧ streaming.fires .A = true ∧
      streaming.fires .B = false ∧ streaming.seqA.dly = 0 ∧
      decodeBytes [romFetch streaming.romA streaming.seqA.pc] = .ok (.refill false 1)) ∧
    (onlyB.rst = false ∧ onlyB.edgeNext ∧ onlyB.ctl ≠ .busy ∧ onlyB.fires .A = false ∧ onlyB.fires .B = true ∧
      onlyB.seqB.dly = 0 ∧ decodeBytes [romFetch onlyB.romB onlyB.seqB.pc] = .ok (.setclk true 0)) ∧
    (settling.rst = false ∧ settling.edgeNext ∧ settling.ctl ≠ .busy ∧ settling.fires .A = true ∧
      settling.fires .B = true ∧ settling.seqA.dly = 0 ∧ settling.seqB.dly = 0 ∧
      decodeBytes [romFetch settling.romB settling.seqB.pc] = .ok (.setclk true 0) ∧
      decodeBytes [romFetch settling.romA settling.seqA.pc] = .ok (.refill false 1)) :=
  ⟨⟨rfl, .inl rfl, by decide, by decide, by decide, rfl, rfl⟩, ⟨rfl, .inl rfl, by decide, by decide, by decide, rfl, rfl⟩,
    ⟨rfl, .inl rfl, by decide, by decide, by decide, rfl, rfl, rfl, rfl⟩⟩

theorem witness_ReservedUopIsRefused :
    let op : State := { settling with romA := ⟨0x60, 0xC8⟩ }
    let rsv : State := { settling with romB := ⟨0x81, 0x00⟩ }
    ((op.seq .A).dly = 0 ∧ (romFetch (op.rom .A) (op.seq .A).pc).extractLsb' 5 2 = 3) ∧
    ((rsv.seq .B).dly = 0 ∧ (romFetch (rsv.rom .B) (rsv.seq .B).pc).extractLsb' 0 3 ≠ 0) := by decide

theorem witness_OnlyAlignedWordAccessesAdmitted :
    let admittedRead := withHost ready [.read 32 0xFC]
    let narrowRead := withHost ready [.read 8 0x00]
    let admittedWrite := withHost ready [.write 32 0x00 1]
    let farWrite := withHost ready [.write 32 0x100 1]
    (admittedRead.rst = false ∧ admittedRead.host = .read 32 0xFC :: [] ∧ 0xFC % 4 = 0 ∧ 0xFC ≤ 0xFC) ∧
    (narrowRead.rst = false ∧ narrowRead.host = .read 8 0x00 :: [] ∧ ¬ (8 = 32)) ∧
    (admittedWrite.rst = false ∧ admittedWrite.host = .write 32 0x00 1 :: [] ∧ 0x00 % 4 = 0 ∧ 0x00 ≤ 0xFC) ∧
    (farWrite.rst = false ∧ farWrite.host = .write 32 0x100 1 :: [] ∧ ¬ (0x100 ≤ 0xFC)) := by decide

/-! ### Witnesses: host commands and the port -/

theorem witness_NopEffect :
    (0xFFFFFFF0 : Word).extractLsb' 0 4 = 0x0 ∧ quiet.ctl = .idle ∧ ready.ctl = .ready ∧ ¬ (faulted.ctl = .idle ∨ faulted.ctl = .ready) := by decide

/-- P3's PREPARE with two ticks of BUSY to go. -/
def waiting : State := { busy with busyLeft := 2 }

theorem witness_PrepareAcceptance :
    ((0xFFFFFFF1 : Word).extractLsb' 0 4 = 0x1 ∧ quiet.ctl = .idle ∧ ready.ctl = .ready ∧
      ¬ (busy.ctl = .idle ∨ busy.ctl = .ready)) ∧ ready.Inv ∧ quiet.Inv ∧ (busy.Inv ∧ busy.ctl = .busy) ∧
    (waiting.Inv ∧ waiting.ctl = .busy ∧ 2 ≤ waiting.busyLeft) :=
  ⟨by decide, ready_inv, quiet_inv, ⟨busy_inv, rfl⟩, by constructor <;> decide, rfl, by decide⟩

theorem witness_StartEffect :
    ((0xFFFFFFF2 : Word).extractLsb' 0 4 = 0x2 ∧ ready.ctl = .ready ∧ quiet.ctl = .idle ∧
      (settling.ctl ≠ .ready ∧ settling.ctl ≠ .idle)) ∧ ready.Inv := ⟨by decide, ready_inv⟩

theorem witness_ReservedCommandEffect :
    let low := withHost quiet [.write 32 0x18 0xFFFFFFF3]
    let high := withHost streaming [.write 32 0x18 0x0000000F]
    (low.rst = false ∧ low.host = .write 32 0x18 0xFFFFFFF3 :: [] ∧ 3 ≤ ((0xFFFFFFF3 : Word).extractLsb' 0 4).toNat ∧
      (low.ctl = .idle ∨ low.ctl = .ready)) ∧
    (high.rst = false ∧ high.host = .write 32 0x18 0x0000000F :: [] ∧ 3 ≤ ((0x0000000F : Word).extractLsb' 0 4).toNat ∧
      ¬ (high.ctl = .idle ∨ high.ctl = .ready)) := by decide

theorem witness_IgnFlag :
    (Reg.cmd ∈ [Reg.ctrl, .baseClk, .toneFreq, .amplitude, .ampCeiling, .tableSize, .cmd] ∧ busy.ctl ≠ .idle ∧
      busy.ctl ≠ .ready) ∧
    (∃ t, ({ streaming with ign := true } : State).ign = true ∧ step { streaming with ign := true } = .next t) ∧
    (∃ t, step { faulted with ign := true, rst := true } = .next t ∧ ({ faulted with ign := true, rst := true } : State).resetNext) ∧
    ((0x3C : Nat) ∈ [0x1C, 0x20, 0x24, 0x28, 0x30, 0x34, 0x3C] ∧ 0x40 ≤ 0x40) :=
  ⟨by decide, ⟨_, rfl, rfl⟩, ⟨_, rfl, rfl, .inl rfl⟩, by decide⟩

theorem witness_ConfigurationWrite :
    quiet.ctl = .idle ∧ ready.ctl = .ready ∧
    (faulted.ctl ≠ .idle ∧ faulted.ctl ≠ .ready ∧ (0x14 : Nat) ∈ [0x00, 0x04, 0x08, 0x0C, 0x10, 0x14]) := by decide

theorem witness_ReservedOffsets :
    (0x40 % 4 = 0 ∧ 0x40 ≤ 0x40 ∧ 0x40 ≤ 0xFC) ∧ (0xFC % 4 = 0 ∧ 0x40 ≤ 0xFC ∧ 0xFC ≤ 0xFC) := by decide

theorem witness_HostReadHasNoSideEffect : faulted.Inv ∧ streaming.Inv := ⟨faulted_inv, streaming_inv⟩

theorem witness_StatusRead : faulted.Inv ∧ (streaming.Inv ∧ streaming.ctl ≠ .fault) :=
  ⟨faulted_inv, streaming_inv, by decide⟩

theorem witness_WriteThenRead : quiet.ctl = .idle ∧ (0x04 : Nat) ∈ [0x04, 0x08, 0x0C, 0x10, 0x14, 0x2C, 0x38] := by decide

/-- TBL_INDEX on the last entry of P3's table, and one past it. -/
def windowLast : State := { ready with tblIndex := 3 }
def windowPast : State := { ready with tblIndex := 4 }

theorem witness_TableWindowRead :
    (windowLast.Inv ∧ windowLast.valid = true ∧ windowLast.tblIndex.toNat < windowLast.tableSize.toNat) ∧
    (windowPast.Inv ∧ windowPast.tableSize.toNat ≤ windowPast.tblIndex.toNat) ∧ (faulted.Inv ∧ faulted.valid = false) := by
  refine ⟨⟨?_, by decide⟩, ⟨?_, by decide⟩, faulted_inv, rfl⟩
  · constructor <;> decide
  · constructor <;> decide

theorem witness_BitReversal : 0 < 32 ∧ 31 < 32 := by decide

/-! ### Witnesses: micro-instructions and dividers -/

theorem witness_SlotCarriesSampleMsbFirst :
    let s : State := { settling with osr := encodeSample 1005 true, osrCnt := 0 }
    s.osr = encodeSample 1005 true ∧ s.osrCnt = 0 ∧ 0 < 32 ∧ 31 < 32 := ⟨rfl, rfl, by decide, by decide⟩

theorem witness_SetclkEffect :
    (0x98 : Byte) &&& 0x67 = 0x00 ∧ ({ settling with active := .A } : State).active = .A ∧ ({ settling with active := .B } : State).active = .B := ⟨rfl, rfl, rfl⟩

theorem witness_RefillEffect :
    (0xB8 : Byte) &&& 0x67 = 0x20 ∧ ({ settling with osrCnt := 31 } : State).osrCnt ≠ 32 ∧
    (({ streaming with osrCnt := 32 } : State).osrCnt = 32 ∧ streaming.txq = 0 :: []) ∧
    (({ streaming with txq := [], osrCnt := 32 } : State).osrCnt = 32 ∧
      ({ streaming with txq := [], osrCnt := 32 } : State).txq = [] ∧ streaming.ctl = .streaming) ∧
    (settling.osrCnt = 32 ∧ settling.txq = [] ∧ settling.ctl ≠ .streaming) := by decide

theorem witness_Shift1Effect :
    (0xD8 : Byte) &&& 0x67 = 0x40 ∧ settling.BufferZeroFilled ∧ settling.osrCnt = 32 :=
  ⟨by decide, by unfold State.BufferZeroFilled; decide, rfl⟩

theorem witness_MicroStepEffect :
    let delayed : State := { settling with seqA := { settling.seqA with dly := 3 } }
    (delayed.seq .A).dly ≠ 0 ∧
    ((settling.seq .A).dly = 0 ∧ (0x28 : Byte) = romFetch (settling.rom .A) (settling.seq .A).pc ∧
      (0x28 : Byte).extractLsb' 0 3 = 0 ∧ (0x28 : Byte).extractLsb' 5 2 ≠ 3) := by decide

/-- A host read; a base tick in a delay tick of SEQ_A in which SEQ_B does not fire; a base tick before START. -/
theorem witness_LinesHold :
    let delayed : State := { streaming with seqA := { streaming.seqA with dly := 1 } }
    (∃ t, step (withHost streaming [.read 32 0x1C]) = .next t ∧ ¬ (withHost streaming [.read 32 0x1C]).edgeNext) ∧
    (∃ t, step delayed = .next t ∧ delayed.edgeNext ∧ delayed.rst = false ∧
      ∀ X, delayed.countdown.fires X = false ∨ (delayed.seq X).dly ≠ 0) ∧
    (∃ t, step ready = .next t ∧ ready.edgeNext ∧ ready.rst = false ∧
      ∀ X, ready.countdown.fires X = false ∨ (ready.seq X).dly ≠ 0) :=
  ⟨⟨_, rfl, by decide⟩, ⟨_, rfl, .inl rfl, rfl, by intro X; cases X <;> decide⟩,
    ⟨_, rfl, .inl rfl, rfl, by intro X; cases X <;> decide⟩⟩

theorem witness_DividerTick :
    (∃ t, ready.ctl = .ready ∧ exec .start ready = .next t) ∧
    ((settling.seq .A).run = true ∧ 256 ≤ (settling.d256 .A).toNat ∧ (settling.seq .A).acc.toNat < (settling.d256 .A).toNat ∧
      (settling.seq .A).acc = settling.d256 .A - 256) ∧
    ((streaming.seq .B).run = true ∧ 256 ≤ (streaming.d256 .B).toNat ∧
      (streaming.seq .B).acc.toNat < (streaming.d256 .B).toNat) :=
  ⟨⟨_, rfl, rfl⟩, by decide, by decide⟩

theorem witness_DividerClosedForm : 256 ≤ (256 : BitVec 24).toNat ∧ 256 ≤ (0xFFFFFF : BitVec 24).toNat := by decide

/-! ### Witnesses: the transmitter -/

theorem witness_FeederStep :
    (streaming.ctl = .streaming ∧ streaming.txq.length < streaming.params.txqDepth ∧ streaming.j < streaming.params.tableCap ∧
      1 ≤ streaming.tableSize.toNat) ∧
    settling.ctl ≠ .streaming ∧
    ({ streaming with txq := [0, 1, 2, 3] } : State).params.txqDepth ≤ ({ streaming with txq := [0, 1, 2, 3] } : State).txq.length := by
  decide

theorem witness_SettleDelayLength :
    ready.Inv ∧ ready.ctl = .ready ∧ 9 < ready.params.settleTicks ∧ ready.params.settleTicks ≤ 11 ∧
    10 = ready.params.settleTicks := ⟨ready_inv, rfl, by decide, by decide, rfl⟩

theorem witness_StepKeepsStreamOrder : streaming.Inv ∧ streaming.StreamOrder ∧ ∃ t, step streaming = .next t := by
  refine ⟨streaming_inv, fun _ i hi => ?_, _, rfl⟩
  have : i = 0 := by
    have : streaming.qLevel = 1 := rfl
    omega
  subst this
  rfl

theorem witness_FirstTransitionsInOneTick : ready.Inv ∧ ready.ctl = .ready := ⟨ready_inv, rfl⟩

theorem witness_ProgramATimeline :
    settling.romA = romAInit ∧ settling.seqA.pc = 0 ∧ settling.seqA.dly = 0 ∧ settling.osrCnt = 32 ∧ 1 ≤ 129 := by decide

theorem witness_ProgramBTimeline :
    settling.romB = romBInit ∧ settling.seqB.pc = 0 ∧ settling.seqB.dly = 0 ∧ 1 ≤ 1 := by decide

theorem witness_ClockWaveformsIndependent :
    let other : State := { streaming with txq := [0xFFFFFFFF, 1], ctl := .settling, settleCnt := 3, ign := true }
    streaming.ctl ≠ .busy ∧ other.ctl ≠ .busy ∧ streaming.SameClocks other ∧
    (∃ t, baseTick streaming = .next t) ∧ ∃ t, baseTick other = .next t :=
  ⟨by decide, by decide, by decide, ⟨_, rfl⟩, ⟨_, rfl⟩⟩

/-! ### Witnesses: faults -/

/-- A CMD write that faults, and a PREPARE of the reset configuration that faults at completion (V-CTL-6). -/
theorem witness_FaultEntry :
    let early := withHost quiet [.write 32 0x18 0x2]
    let unset : State := { quiet with ctl := .busy, busyLeft := 1 }
    (early.Inv ∧ early.ctl ≠ .fault ∧ ¬ early.edgeNext ∧ ∃ t, step early = .next t ∧ (t.ctl == .fault) = true) ∧
    (unset.Inv ∧ unset.ctl ≠ .fault ∧ ∃ t, step unset = .next t ∧ (t.ctl == .fault) = true) :=
  ⟨⟨by constructor <;> decide, by decide, by decide, exists_of_after (by decide)⟩,
    by constructor <;> decide, by decide, exists_of_after (by decide +kernel)⟩

theorem witness_OnlyResetLeavesFault :
    faulted.ctl = .fault ∧ (∃ t, step faulted = .next t) ∧
    ∃ t, step { faulted with rst := true } = .next t ∧ ({ faulted with rst := true } : State).resetNext :=
  ⟨rfl, ⟨_, rfl⟩, ⟨_, rfl, rfl, .inl rfl⟩⟩

theorem witness_FaultIsQuiescent : faulted.Inv ∧ faulted.ctl = .fault := ⟨faulted_inv, rfl⟩

theorem witness_NoFaultWhileStarted :
    settling.ctl = .settling ∧ streaming.ctl = .streaming ∧ (∃ t, step settling = .next t) ∧ ∃ t, step streaming = .next t :=
  ⟨rfl, rfl, ⟨_, rfl⟩, ⟨_, rfl⟩⟩

/-- A command that faults, and a PREPARE of the reset configuration that faults at completion (V-CTL-6). -/
theorem witness_FaultsComeOnlyFromCommandsAndPrepare :
    let early := withHost quiet [.write 32 0x18 0x2]
    let unset : State := { quiet with ctl := .busy, busyLeft := 1 }
    (early.ctl ≠ .fault ∧ ∃ t, step early = .next t ∧ (t.ctl == .fault) = true) ∧
    (unset.ctl ≠ .fault ∧ ∃ t, step unset = .next t ∧ (t.ctl == .fault) = true) :=
  ⟨⟨by decide, exists_of_after (by decide)⟩, by decide, exists_of_after (by decide +kernel)⟩

/-! ### Witnesses: PREPARE completion -/

theorem witness_BadRateFault :
    let six : State := { busy with ctrl := 0xC }
    let seven : State := { busy with ctrl := 0xF }
    (six.ctl = .busy ∧ six.busyLeft = 1 ∧ 6 ≤ (six.ctrl.extractLsb' 1 3).toNat) ∧
    (seven.ctl = .busy ∧ seven.busyLeft = 1 ∧ 6 ≤ (seven.ctrl.extractLsb' 1 3).toNat) := by decide

/-- V-DIV-26's five values: −0.0 in a PREPARE, +0.0, −1.0, +infinity and a NaN, at the highest legal rate. -/
theorem witness_BaseClockValidity :
    let bad : State := { busy with ctrl := 0xA, baseClk := 0x80000000 }
    bad.ctl = .busy ∧ bad.busyLeft = 1 ∧ (bad.ctrl.extractLsb' 1 3).toNat ≤ 5 ∧ baseClkValid bad.baseClk = false ∧
    baseClkValid 0x00000000 = false ∧ baseClkValid 0xBF800000 = false ∧ baseClkValid 0x7F800000 = false ∧
    baseClkValid 0x7FC00000 = false :=
  ⟨rfl, rfl, by decide, by decide +kernel, by decide +kernel, by decide +kernel, by decide +kernel, by decide +kernel⟩

/-- V-DIV-21 (LOW), 1.0e12 at 32 kHz (HIGH), 1.0 against 32 000 (LOW for SEQ_B), V-DIV-19 (HIGH for SEQ_B); and PREPAREs
that end with SEQ_A's fault and with SEQ_B's. -/
theorem witness_DivisorRangeFaults :
    let low : State := { busy with ctrl := 0x9 }
    let high : State := { busy with baseClk := 0x501502F9 }
    (quotient (F32.flt 0x4AFA0000) (F32.ofNat 4) (F32.ofNat 12288000)).lt (F32.ofNat 1) = true ∧
    (quotient (F32.flt 0x5368D4A5) (F32.ofNat 4) (F32.ofNat 2048000)).ge (F32.ofNat 65536) = true ∧
    (quotient (F32.flt 0x3F800000) (F32.ofNat 2) (F32.ofNat 32000)).lt (F32.ofNat 1) = true ∧
    (quotient (F32.flt 0x501502F9) (F32.ofNat 2) (F32.ofNat 32000)).ge (F32.ofNat 65536) = true ∧
    (low.ctl = .busy ∧ low.busyLeft = 1 ∧ rateTable low.rateSel = some (192000, 12288000) ∧ baseClkValid low.baseClk = true ∧
      ∃ t, computeDivA (F32.flt low.baseClk) 12288000 { low with busyLeft := 0 } = .error t) ∧
    (high.ctl = .busy ∧ high.busyLeft = 1 ∧ rateTable high.rateSel = some (32000, 2048000) ∧
      baseClkValid high.baseClk = true ∧
      ∃ t u, computeDivA (F32.flt high.baseClk) 2048000 { high with busyLeft := 0 } = .ok t ∧
        computeDivB (F32.flt high.baseClk) 32000 t = .error u) := by
  have hA : computeDivisor (F32.flt 0x501502F9) (F32.ofNat 4) (F32.ofNat 2048000) = .ok 1220 180 := by decide +kernel
  have hB : computeDivisor (F32.flt 0x501502F9) (F32.ofNat 2) (F32.ofNat 32000) = .high 0x48189680 := by decide +kernel
  refine ⟨by decide +kernel, by decide +kernel, by decide +kernel, by decide +kernel,
    ⟨rfl, rfl, by decide, by decide +kernel, error_of_succeeded (by decide +kernel)⟩,
    rfl, rfl, by decide, by decide +kernel, ?_⟩
  exact ⟨{ busy with baseClk := 0x501502F9, busyLeft := 0, divA := d256Of 1220 180 }, _, by simp only [computeDivA, hA],
    by simp only [computeDivB, hB]; rfl⟩

/-- The lowest divisor and the highest (V-DIV-22, V-DIV-23), and V-DIV-13's SEQ_B. -/
theorem witness_DivisorRegisters :
    computeDivisor (F32.flt 0x4AFA0000) (F32.ofNat 4) (F32.ofNat 2048000) = .ok 1 0 ∧
    computeDivisor (F32.flt 0x4C371B00) (F32.ofNat 2) (F32.ofNat 32000) = .ok 750 0 := by decide +kernel

/-- V-DIV-20's SEQ_A (d = 1.0) and V-DIV-23 (d = 65535.99609375, over 1.0 and 1.0). -/
theorem witness_DivisorAccuracy :
    computeDivisor (F32.flt 0x4AFA0000) (F32.ofNat 4) (F32.ofNat 2048000) = .ok 1 0 ∧
    computeDivisor (F32.flt 0x477FFFFF) (F32.ofNat 1) (F32.ofNat 1) = .ok 65535 255 := by decide +kernel

/-- V-DIV-20 (K = 256), and K = 131 071 at 32 kHz. -/
theorem witness_LockedDivisors :
    rateTable 0 = some (32000, 2048000) ∧
    (256 ≤ 256 ∧ F32.flt 0x4AFA0000 = .fin false (256 * 32000 * F32.unit)) ∧
    (131071 < 131072 ∧ F32.flt 0x4F79FF83 = .fin false (131071 * 32000 * F32.unit)) := by decide +kernel

/-- Checks 1 to 3 of R151, as `Obligations.SynthInputChecks` states them. -/
abbrev sizeOk (s : State) : Prop := 1 ≤ s.tableSize.toNat ∧ s.tableSize.toNat ≤ s.params.tableCap
abbrev toneOk (s : State) : Prop :=
  s.toneFreq.extractLsb' 23 8 ≠ 255 ∧ (s.toneFreq.getLsbD 31 = false ∨ s.toneFreq.extractLsb' 0 31 = 0)
abbrev ceilOk (s : State) : Prop := s.ampCeiling.toNat ≤ (if s.ctrl.getLsbD 0 then 8388606 else 2147483646)

/-- The failures of V-CTL-8 to V-CTL-10 and V-SYN-11 (N = 3) on P3's configuration, each with the earlier checks passing,
with TABLE_SIZE at both ends, and P3's own configuration, with its 8 388 606 at the end of the ceiling's range. -/
theorem witness_SynthInputChecks :
    (¬ sizeOk { busy with tableSize := 0 } ∧ ¬ sizeOk { busy with tableSize := 1921 }) ∧
    (sizeOk { busy with tableSize := 1, toneFreq := 0xBF800000 } ∧ ¬ toneOk { busy with tableSize := 1, toneFreq := 0xBF800000 }) ∧
    (sizeOk { busy with tableSize := 1920, ampCeiling := 0x007FFFFF } ∧
      toneOk { busy with tableSize := 1920, ampCeiling := 0x007FFFFF } ∧
      ¬ ceilOk { busy with tableSize := 1920, ampCeiling := 0x007FFFFF }) ∧
    (sizeOk { busy with tableSize := 3 } ∧ toneOk { busy with tableSize := 3 } ∧ ceilOk { busy with tableSize := 3 } ∧
      ¬ ∃ (neg : Bool) (mag : Nat), F32.flt busy.toneFreq = .fin neg mag ∧ 32000 * 2 ^ 149 ∣ 3 * mag) ∧
    (sizeOk busy ∧ toneOk busy ∧ ceilOk busy ∧
      ∃ (neg : Bool) (mag : Nat), F32.flt busy.toneFreq = .fin neg mag ∧ 32000 * 2 ^ 149 ∣ busy.tableSize.toNat * mag) := by
  have hf : F32.flt busy.toneFreq = .fin false (8000 * 2 ^ 149) := by decide +kernel
  refine ⟨by decide, by decide, by decide, ⟨by decide, by decide, by decide, ?_⟩, by decide, by decide, by decide,
    false, 8000 * 2 ^ 149, hf, by decide +kernel⟩
  rintro ⟨neg, mag, h, hd⟩
  cases hf.symm.trans h
  revert hd
  decide +kernel

/-- P3's divisors (V-DIV-20), 0x100 and 0x8000. -/
theorem busy_divisors :
    computeDivisor (F32.flt busy.baseClk) (F32.ofNat 4) (F32.ofNat 2048000) = .ok 1 0 ∧
    computeDivisor (F32.flt busy.baseClk) (F32.ofNat 2) (F32.ofNat 32000) = .ok 128 0 := by decide +kernel

/-- A state with P3's divisors computed, in the tick that completes PREPARE. -/
def divided (s : State) : State := { s with busyLeft := 0, divA := 0x100, divB := 0x8000 }

/-- The premises on the divisors that `Obligations.SynthInputChecks` has, for a state with P3's BASE_CLK. -/
theorem accepted_divisors (s : State) (h : s.baseClk = busy.baseClk) :
    computeDivA (F32.flt s.baseClk) 2048000 { s with busyLeft := 0 } = .ok { s with busyLeft := 0, divA := 0x100 } ∧
    computeDivB (F32.flt s.baseClk) 32000 { s with busyLeft := 0, divA := 0x100 } = .ok (divided s) := by
  have hA := busy_divisors.1
  have hB := busy_divisors.2
  rw [← h] at hA hB
  exact ⟨by simp only [computeDivA, hA]; rfl, by simp only [computeDivB, hB]; rfl⟩

/-- PREPAREs that end with a failed check (N = 3, V-SYN-11) and with SYNTH's fault (a ceiling of 1000). -/
theorem witness_SynthInputChecks_ends :
    let odd : State := { busy with tableSize := 3 }
    let low : State := { busy with ampCeiling := 1000 }
    (odd.ctl = .busy ∧ odd.busyLeft = 1 ∧ rateTable odd.rateSel = some (32000, 2048000) ∧ baseClkValid odd.baseClk = true ∧
      (∃ a, computeDivA (F32.flt odd.baseClk) 2048000 { odd with busyLeft := 0 } = .ok a ∧
        computeDivB (F32.flt odd.baseClk) 32000 a = .ok (divided odd)) ∧
      ∃ t, checkSynthInputs 32000 (divided odd) = .error t) ∧
    (low.ctl = .busy ∧ low.busyLeft = 1 ∧ rateTable low.rateSel = some (32000, 2048000) ∧ baseClkValid low.baseClk = true ∧
      (∃ a, computeDivA (F32.flt low.baseClk) 2048000 { low with busyLeft := 0 } = .ok a ∧
        computeDivB (F32.flt low.baseClk) 32000 a = .ok (divided low)) ∧
      checkSynthInputs 32000 (divided low) = .ok (divided low) ∧ ∃ t, synth 32000 (divided low) = .error t) := by
  refine ⟨⟨rfl, rfl, by decide, by decide +kernel, ⟨_, accepted_divisors _ rfl⟩, error_of_succeeded ?_⟩,
    rfl, rfl, by decide, by decide +kernel, ⟨_, accepted_divisors _ rfl⟩, checks_pass ?_, error_of_succeeded ?_⟩ <;>
    decide +kernel

/-- V-SYN-1 succeeds, in a whole PREPARE too (P3); with a ceiling of 1000 its entry 1 (1005) fails. -/
theorem witness_SynthesisResult :
    (busy.sample.wf = true ∧ (∃ t, synth 32000 busy = .ok t) ∧
      ∃ t, synth 32000 { busy with ampCeiling := 1000 } = .error t) ∧
    (busy.ctl = .busy ∧ busy.busyLeft = 1 ∧ busy.word.wf = true ∧ rateTable busy.rateSel = some (32000, 2048000) ∧
      baseClkValid busy.baseClk = true ∧
      computeDivisor (F32.flt busy.baseClk) (F32.ofNat 4) (F32.ofNat 2048000) = .ok 1 0 ∧
      computeDivisor (F32.flt busy.baseClk) (F32.ofNat 2) (F32.ofNat 32000) = .ok 128 0 ∧
      checkSynthInputs 32000 (divided busy) = .ok (divided busy) ∧ ∃ u, synth 32000 (divided busy) = .ok u) :=
  ⟨⟨rfl, ok_of_succeeded (by decide +kernel), error_of_succeeded (by decide +kernel)⟩,
    rfl, rfl, rfl, by decide, by decide +kernel, busy_divisors.1, busy_divisors.2, checks_pass (by decide +kernel),
    ok_of_succeeded (by decide +kernel)⟩

theorem witness_FirstSampleIsZero :
    busy.sample.wf = true ∧ 1 ≤ busy.tableSize.toNat ∧ ∃ t, synth 32000 busy = .ok t :=
  ⟨rfl, by decide, ok_of_succeeded (by decide +kernel)⟩

/-- Two states that agree on the configuration only: one that succeeds, one that faults. -/
theorem witness_PrepareDependsOnConfigurationOnly :
    let other : State := { busy with busyLeft := 7, ign := true, sample := [(2, 9)], word := [(0, 1)], encIn := 5 }
    let bad : State := { busy with tableSize := 3 }
    (busy.SameConfig other ∧ busy.sample.wf = true ∧ other.sample.wf = true ∧ busy.word.wf = true ∧ other.word.wf = true ∧
      (completePrepare busy).valid = true) ∧
    (bad.SameConfig bad ∧ (completePrepare bad).ctl = .fault) := by decide +kernel

/-! ### Witnesses: reset and invariants -/

theorem witness_ResetFromAnyState :
    let edge : State := { streaming with rst := true }
    let read : State := withHost { streaming with rst := true } [.read 32 0x1C]
    (edge.rst = true ∧ edge.edgeNext) ∧
    (read.rst = true ∧ (read.host = .read 32 0x1C :: [] ∨ read.host = .write 32 0x1C 0 :: [])) := by decide

theorem witness_StepKeepsInv : (ready.Inv ∧ ∃ t, step ready = .next t) ∧ (streaming.Inv ∧ ∃ t, step streaming = .next t) :=
  ⟨⟨ready_inv, _, rfl⟩, streaming_inv, _, rfl⟩

theorem witness_AdmittedStepAnswers :
    (settling.Inv ∧ settling.nextEventAdmitted = true) ∧
    ((withHost faulted [.write 32 0xFC 1]).Inv ∧ (withHost faulted [.write 32 0xFC 1]).nextEventAdmitted = true) :=
  ⟨⟨settling_inv, rfl⟩, by constructor <;> decide, by decide⟩

theorem witness_StepKeepsTablesCoherent : ready.Inv ∧ ready.TablesCoherent ∧ ∃ t, step ready = .next t := by
  refine ⟨ready_inv, fun _ => ⟨by decide, ?_⟩, _, rfl⟩
  have h : ∀ i < 4, ready.word.read i = encodeSample (ready.sample.read i) ready.is24Bit ∧
      (ready.sample.read i).toInt.natAbs ≤ ready.ampCeiling.toNat := by decide +kernel
  exact h

theorem witness_StepKeepsBufferAndPhase :
    streaming.Inv ∧ streaming.BufferZeroFilled ∧ streaming.ProgramPhase ∧ ∃ t, step streaming = .next t :=
  ⟨streaming_inv, by unfold State.BufferZeroFilled; decide, by unfold State.ProgramPhase; decide, _, rfl⟩

end Sys2Proof.Tests
end

section
/-! PROOF. The invariant holds after reset, at power-on and at a clock edge with `rst` asserted
(10_state.md R66, 70_reset_and_hazards.md R290). -/
namespace Sys2Proof

/-- The free parameters are drawn inside the ranges of 00_scope.md R8. -/
theorem Config.params_legal : Config.params.Legal := by
  have hq := Config.txqDepthDraw.isLt
  have ht := Config.tableCapDraw.isLt
  simp only [Params.Legal, Config.params]
  omega

namespace Machine

/-- A reset edge gives the invariant from every state with legal parameters and the fixed stores, the two things that
reset leaves alone (70_reset_and_hazards.md R291). Where a clause speaks of CTL after START or PREPARE, it is empty:
STATE is IDLE. -/
theorem State.resetEdge_inv {s : State} (hparams : s.params.Legal) (hroms : s.romA = romAInit ∧ s.romB = romBInit) :
    s.resetEdge.Inv where
  paramsLegal := hparams
  romsFixed := hroms
  tablesCanonical := ⟨rfl, rfl⟩
  runsIffStarted := ⟨rfl, rfl⟩
  validIffPrepared := rfl
  causeIffFault := iff_of_true rfl nofun
  infoNeedsFault := fun _ => rfl
  busyCounts := nofun
  settleBound := Nat.zero_le _
  preparedSizes := nofun
  feederIndex := by
    obtain ⟨-, -, hcap, -⟩ := hparams
    exact hcap
  feederBelowLen := nofun
  dividerBound := nofun
  queueBound := Nat.zero_le _
  queueBeforeStreaming := fun _ => rfl
  queueWhileStreaming := nofun
  noUnderrun := rfl
  beforeStart := fun _ => ⟨rfl, rfl, rfl, rfl, rfl, rfl, rfl⟩

/-- The state after reset is what a reset edge makes of itself. -/
theorem State.resetEdge_reset : State.reset.resetEdge = State.reset := rfl

/-- Settles O56: the parameters drawn are legal, and every other clause is at its value of R66. -/
theorem invHoldsAtReset : Obligations.InvHoldsAtReset := by
  unfold Obligations.InvHoldsAtReset
  rw [← State.resetEdge_reset]
  exact State.resetEdge_inv Config.params_legal ⟨rfl, rfl⟩

end Machine
end Sys2Proof
end

section
/-! PROOF. What an accepted divisor is: DIVCALC's split of its quotient is exact (40_divisor.md R130, R133 to R136). -/
namespace Sys2Proof.Machine
open F32

namespace F32

theorem two_pow_mul_unit_le {k : Nat} (hk : k ≤ 128) : 2 ^ k * unit ≤ overflowMag :=
  Nat.mul_le_mul_right _ (Nat.pow_le_pow_right (by omega) hk)

/-- Adding the difference of two magnitudes is exact where it is representable. -/
theorem add_fin_sub {a b k : Nat} (hab : a = k + b) (hk : representable k) :
    add (.fin false a) (.fin true b) = .fin false k := by
  rw [add_fin _ _ _ _ (k : Int) (by simp only [signed_false, signed_true]; omega)]
  split
  · rename_i hzero
    rw [Int.natCast_eq_zero.1 hzero, Bool.false_and]
  · have hneg : decide ((k : Int) < 0) = false := by simp
    rw [hneg, Int.natAbs_natCast]
    simpa using round_exact (den := 1) false (by omega) hk

/-- The part of a magnitude below one unit is representable: subtracting the whole part is exact. -/
theorem representable_mod_unit {m : Nat} (h : representable m) : representable (m % unit) := by
  obtain ⟨⟨s, hdvd, hlt⟩, hover⟩ := representable_iff.1 h
  have hle : m % unit ≤ m := Nat.mod_le _ _
  rcases Nat.le_total s 149 with hs | hs
  · have hunit : 2 ^ s ∣ unit := unit_eq ▸ Nat.pow_dvd_pow 2 hs
    exact representable_of_dvd ((Nat.dvd_mod_iff hunit).2 hdvd) (by omega) (by omega)
  · have hunit : unit ∣ m := Nat.dvd_trans (unit_eq ▸ Nat.pow_dvd_pow 2 hs) hdvd
    rw [Nat.mod_eq_zero_of_dvd hunit]
    exact representable_zero

/-- Scaling a magnitude below one unit by 256 keeps it representable. -/
theorem representable_mul_256 {m : Nat} (h : representable m) (hlt : m < unit) : representable (m * 256) := by
  obtain ⟨⟨s, hdvd, hs⟩, -⟩ := representable_iff.1 h
  refine representable_of_dvd (s := s + 8) ?_ ?_ ?_
  · rw [Nat.pow_add]
    exact Nat.mul_dvd_mul_right hdvd _
  · rw [show s + 8 + 24 = s + 24 + 8 by omega, Nat.pow_add]
    omega
  · have h256 := two_pow_mul_unit_le (k := 8) (by omega)
    omega

/-- d ⊖ f32(INT) is exact: the fractional part of a quotient below 65536. -/
theorem sub_divInt {m : Nat} (h : representable m) (hlt : m < 65536 * unit) :
    (fin false m).sub (ofNat (divInt (fin false m))) = fin false (m % unit) := by
  have hint : m / unit < 2 ^ 24 := by
    have := (Nat.div_lt_iff_lt_mul unit_pos).2 hlt
    omega
  rw [divInt, trunc_toNat, ofNat_exact hint, sub, neg, Bool.not_false]
  exact add_fin_sub (Nat.mod_add_div' m unit).symm (representable_mod_unit h)

/-- FRAC is the fractional part in 1/256, exactly. -/
theorem divFrac_eq {m : Nat} (h : representable m) (hlt : m < 65536 * unit) :
    divFrac (fin false m) = m % unit * 256 / unit := by
  have hrep := representable_mul_256 (representable_mod_unit h) (Nat.mod_lt m unit_pos)
  rw [divFrac, sub_divInt h hlt, ofNat_exact (by omega), mul, Bool.xor_self, ← Nat.mul_assoc,
    round_exact false unit_pos hrep, trunc_toNat]

end F32

/-- A quotient that DIVCALC accepts is a finite d with 1 ≤ d < 65536, split into INT = ⌊d⌋ and
FRAC = ⌊256 · (d − INT)⌋ without rounding. -/
theorem splitDivisor_ok {d : F32} {int frac : Nat} (hd : d.WellFormed) (h : splitDivisor d = .ok int frac) :
    ∃ m, d = .fin false m ∧ unit ≤ m ∧ m < 65536 * unit ∧ int = m / unit ∧ frac = m % unit * 256 / unit := by
  have h1 : ofNat 1 = .fin false (1 * unit) := ofNat_exact (by omega)
  have h65536 : ofNat 65536 = .fin false (65536 * unit) := ofNat_exact (by omega)
  have hunit := unit_pos
  unfold splitDivisor at h
  split at h
  · cases h
  · split at h
    · cases h
    · rename_i hlow hhigh
      rw [h1] at hlow
      rw [h65536] at hhigh
      match d with
      | .nan => simp [isNan] at hlow
      | .inf true =>
        have := overflowMag_pos
        simp [isNan, lt, key] at hlow
        omega
      | .inf false =>
        have := two_pow_mul_unit_le (k := 16) (by omega)
        simp [ge, key] at hhigh
        omega
      | .fin true m =>
        simp [isNan, lt, key] at hlow
        omega
      | .fin false m =>
        simp [isNan, lt, key] at hlow
        simp [ge, key] at hhigh
        have hlt : m < 65536 * unit := by omega
        obtain ⟨rfl, rfl⟩ := DivResult.ok.inj h
        exact ⟨m, rfl, by omega, hlt, trunc_toNat m, divFrac_eq hd hlt⟩

/-- The ranges of an accepted divisor's parts (R136): 1 ≤ INT ≤ 65535 and FRAC ≤ 255. -/
theorem computeDivisor_bounds {base cycles target : F32} {int frac : Nat}
    (h : computeDivisor base cycles target = .ok int frac) : 1 ≤ int ∧ int ≤ 65535 ∧ frac ≤ 255 := by
  obtain ⟨m, -, hlow, hhigh, rfl, rfl⟩ := splitDivisor_ok (div_wellFormed _ _) h
  have hint : m / unit < 65536 := (Nat.div_lt_iff_lt_mul unit_pos).2 hhigh
  have hfrac : m % unit * 256 / unit < 256 := by
    rw [Nat.div_lt_iff_lt_mul unit_pos]
    have := Nat.mod_lt m unit_pos
    omega
  exact ⟨Nat.div_pos hlow unit_pos, by omega, by omega⟩

/-- An accepted divisor fits its 24 bits, and is at least 1 in 1/256 units (43_sequencers.md R191). -/
theorem d256Of_legal {base cycles target : F32} {int frac : Nat}
    (h : computeDivisor base cycles target = .ok int frac) : 256 ≤ (d256Of int frac).toNat := by
  obtain ⟨hlow, hhigh, hfrac⟩ := computeDivisor_bounds h
  rw [d256Of, BitVec.toNat_ofNat, Nat.mod_eq_of_lt] <;> omega

end Sys2Proof.Machine
end

section
/-! PROOF. What an event of the outside can do, and what each part of a base tick keeps: the rules that the step
invariants are read off. -/
namespace Sys2Proof.Machine

/-! ### STATE -/

theorem Ctl.started_iff {c : Ctl} : c.started = true ↔ c = .settling ∨ c = .streaming := by
  cases c <;> simp [Ctl.started]

theorem Ctl.accepts_iff {c : Ctl} : c.accepts = true ↔ c = .idle ∨ c = .ready := by
  cases c <;> simp [Ctl.accepts]

theorem Ctl.not_started_of_accepts {c : Ctl} (h : c.accepts = true) : c.started = false := by
  rcases Ctl.accepts_iff.1 h with rfl | rfl <;> rfl

theorem Ctl.not_accepts {c : Ctl} (hidle : c ≠ .idle) (hready : c ≠ .ready) : c.accepts = false := by
  rw [← Bool.not_eq_true, Ctl.accepts_iff, not_or]
  exact ⟨hidle, hready⟩

theorem Ctl.prepared_of_started {c : Ctl} (h : c.started = true) : c.prepared = true := by
  rcases Ctl.started_iff.1 h with rfl | rfl <;> rfl

/-! ### Events of the outside -/

/-- What an accepted configuration write leaves: the six registers as given and STATE in IDLE, with VALID as it was there
and cleared from READY (44_transmitter.md R235; `configWrite_effect`). -/
def State.reconfigured (ctrl : BitVec 4) (baseClk toneFreq amplitude ampCeiling tableSize : Word) (s : State) : State :=
  { s with
    ctl := .idle, valid := s.valid && s.ctl == .idle, ctrl := ctrl, baseClk := baseClk, toneFreq := toneFreq,
    amplitude := amplitude, ampCeiling := ampCeiling, tableSize := tableSize }

/-- A configuration write that stores some of the six registers reconfigures, or is ignored with IGN. -/
theorem configWrite_effect {store : State → State} {s : State} {ctrl : BitVec 4}
    {baseClk toneFreq amplitude ampCeiling tableSize : Word}
    (hstore : store s = { s with
      ctrl := ctrl, baseClk := baseClk, toneFreq := toneFreq, amplitude := amplitude, ampCeiling := ampCeiling,
      tableSize := tableSize }) :
    (s.ctl.accepts = true ∧
      configWrite store s = s.reconfigured ctrl baseClk toneFreq amplitude ampCeiling tableSize) ∨
    (s.ctl.accepts = false ∧ configWrite store s = s.setIgn) := by
  rcases configWrite_cases store s with ⟨hc, he⟩ | ⟨hc, he⟩ | ⟨hi, hr, he⟩
  · exact .inl ⟨by rw [hc]; rfl, by simp [he, hstore, State.reconfigured, hc]⟩
  · exact .inl ⟨by rw [hc]; rfl, by simp [he, hstore, State.reconfigured, hc]⟩
  · exact .inr ⟨Ctl.not_accepts hi hr, he⟩

/-- What an admitted write that answers has done, by its effect: the two registers that every STATE accepts, a command,
an accepted configuration write, or IGN. -/
theorem hostWrite_effect {offset : Nat} {w : Word} {s t : State} (h : hostWrite offset w s = .next t) :
    (∃ tblIndex encIn, t = { s with tblIndex := tblIndex, encIn := encIn }) ∨
    (regAt offset = some .cmd ∧ writeCmd w s = .next t) ∨
    (s.ctl.accepts = true ∧ ∃ ctrl baseClk toneFreq amplitude ampCeiling tableSize,
      t = s.reconfigured ctrl baseClk toneFreq amplitude ampCeiling tableSize) ∨
    (s.ctl.accepts = false ∧ t = s.setIgn) := by
  have config {store : State → State} {a b c d e f} (ht : t = configWrite store s)
      (hstore : store s = { s with
        ctrl := a, baseClk := b, toneFreq := c, amplitude := d, ampCeiling := e, tableSize := f }) :
      (s.ctl.accepts = true ∧ ∃ a b c d e f, t = s.reconfigured a b c d e f) ∨
      (s.ctl.accepts = false ∧ t = s.setIgn) :=
    (configWrite_effect hstore).imp (fun ⟨ha, he⟩ => ⟨ha, _, _, _, _, _, _, ht.trans he⟩)
      (fun ⟨ha, he⟩ => ⟨ha, ht.trans he⟩)
  rcases hostWrite_cases h with rfl | rfl | rfl | hcmd | ht | ht | ht | ht | ht | ht
  · exact .inl ⟨_, _, rfl⟩
  · exact .inl ⟨_, _, rfl⟩
  · exact .inl ⟨_, _, rfl⟩
  · exact .inr (.inl hcmd)
  all_goals exact .inr (.inr (config ht rfl))

/-- An event of the outside that is no clock edge changes the port's data or the level of `rst`, or is an admitted write. -/
theorem hostEvent_effect {e : HostEvent} {s t : State} (he : e ≠ .edge) (h : hostEvent e s = .next t) :
    (∃ rst data, t = { s with rst := rst, readData := data }) ∨
    (∃ bits offset w, e = .write bits offset w ∧ admitted bits offset = true ∧ hostWrite offset w s = .next t) := by
  cases e with
  | read bits offset =>
    obtain ⟨-, -, hr⟩ := hostAccess_cases h
    obtain ⟨v, rfl⟩ := hostRead_cases hr
    exact .inl ⟨s.rst, v, rfl⟩
  | write bits offset w =>
    obtain ⟨-, ha, hw⟩ := hostAccess_cases h
    exact .inr ⟨bits, offset, w, rfl, ha, hw⟩
  | edge => exact absurd rfl he
  | rst level =>
    cases h
    exact .inl ⟨level, s.readData, rfl⟩

end Sys2Proof.Machine
end

section
/-! PROOF. The invariant is kept by what the host port does, and by a base tick in which nothing runs. -/
namespace Sys2Proof.Machine
variable {s : State}

theorem State.Inv.runs_of_stopped (h : s.Inv) (hs : s.ctl.started = false) : s.seqA.run = false ∧ s.seqB.run = false :=
  hs ▸ h.runsIffStarted

theorem State.Inv.queue_empty_of_stopped (h : s.Inv) (hs : s.ctl.started = false) : s.txq = [] :=
  h.queueBeforeStreaming fun he => by rw [he] at hs; cases hs

/-- What the outside and the port's own registers hold is no matter of the invariant. -/
theorem State.Inv.setOutside (h : s.Inv) (host : List HostEvent) (rst : Bool) (data tblIndex encIn : Word) :
    ({ s with host := host, rst := rst, readData := data, tblIndex := tblIndex, encIn := encIn } : State).Inv :=
  { h with }

theorem State.Inv.setIgn (h : s.Inv) : s.setIgn.Inv := { h with }

/-- A move to a STATE in which nothing runs, from one in which nothing runs: what STATE, the fault fields, busy_left and the
divisors must satisfy there. -/
theorem State.Inv.restate (h : s.Inv) (hs : s.ctl.started = false) {c : Ctl} (hc : c.started = false) {cause : Cause}
    {info : Word} {left : Nat} {divA divB : BitVec 24} (hcause : cause = .none ↔ c ≠ .fault)
    (hinfo : cause = .none → info = 0) (hleft : c = .busy → 1 ≤ left)
    (hsizes : c.prepared = true →
      1 ≤ s.tableLen ∧ s.tableLen ≤ s.params.tableCap ∧ 256 ≤ divA.toNat ∧ 256 ≤ divB.toNat) :
    ({ s with
      ctl := c, valid := c.prepared, cause := cause, faultInfo := info, busyLeft := left, divA := divA,
      divB := divB } : State).Inv :=
  have absurd_started {P : Prop} (ht : c.started = true) : P := absurd ht (hc ▸ Bool.false_ne_true)
  { h with
    runsIffStarted := hc.symm ▸ h.runs_of_stopped hs
    validIffPrepared := rfl
    causeIffFault := hcause
    infoNeedsFault := hinfo
    busyCounts := hleft
    preparedSizes := hsizes
    feederBelowLen := absurd_started
    dividerBound := absurd_started
    queueBeforeStreaming := fun _ => h.queue_empty_of_stopped hs
    queueWhileStreaming := fun he => absurd_started (Ctl.started_iff.2 (.inr he))
    beforeStart := fun _ => h.beforeStart hs }

/-- A fault from a STATE in which nothing runs. -/
theorem State.Inv.raiseFault (h : s.Inv) (hs : s.ctl.started = false) {c : Cause} (hc : c ≠ .none) (info : Word) :
    (s.raiseFault c info).Inv :=
  h.restate (c := .fault) hs rfl (iff_of_false hc (· rfl)) (absurd · hc) nofun nofun

theorem State.Inv.noCause_of_accepts (h : s.Inv) (ha : s.ctl.accepts = true) : s.cause = .none :=
  h.causeIffFault.2 fun he => by rw [he] at ha; cases ha

theorem State.Inv.acceptPrepare (h : s.Inv) (ha : s.ctl.accepts = true) : s.acceptPrepare.Inv :=
  { h.restate (c := .busy) (left := s.latency) (divA := 0) (divB := 0) (Ctl.not_started_of_accepts ha) rfl
      (iff_of_true (h.noCause_of_accepts ha) nofun) h.infoNeedsFault (fun _ => Nat.le_add_left 1 _) nofun with }

theorem State.Inv.reconfigured (h : s.Inv) (ha : s.ctl.accepts = true) (ctrl : BitVec 4)
    (baseClk toneFreq amplitude ampCeiling tableSize : Word) :
    (s.reconfigured ctrl baseClk toneFreq amplitude ampCeiling tableSize).Inv :=
  { h.restate (c := .idle) (left := s.busyLeft) (divA := s.divA) (divB := s.divB) (Ctl.not_started_of_accepts ha) rfl
      (iff_of_true (h.noCause_of_accepts ha) nofun) h.infoNeedsFault nofun nofun with
    validIffPrepared := by
      have hv := h.validIffPrepared
      rcases Ctl.accepts_iff.1 ha with hc | hc <;> simp [State.reconfigured, hv, hc, Ctl.prepared]
    preparedSizes := nofun
    feederBelowLen := nofun }

theorem State.Inv.jointStart (h : s.Inv) (hc : s.ctl = .ready) : s.jointStart.Inv := by
  obtain ⟨hlen, hcap, hA, hB⟩ := h.preparedSizes (by rw [hc]; rfl)
  exact { h with
    runsIffStarted := ⟨rfl, rfl⟩
    validIffPrepared := h.validIffPrepared.trans (by rw [hc]; rfl)
    causeIffFault := iff_of_true (h.noCause_of_accepts (by rw [hc]; rfl)) nofun
    busyCounts := nofun
    settleBound := Nat.zero_le _
    preparedSizes := fun _ => ⟨hlen, hcap, hA, hB⟩
    feederIndex := Nat.lt_of_lt_of_le hlen hcap
    feederBelowLen := fun _ => hlen
    dividerBound := fun _ => by
      simp only [jointStart_seqA, jointStart_seqB, started_acc, jointStart_divA, jointStart_divB]
      constructor <;> bv_omega
    queueBeforeStreaming := fun _ => h.queue_empty_of_stopped (by rw [hc]; rfl)
    queueWhileStreaming := nofun
    beforeStart := nofun }

theorem State.Inv.writeCmd_next (h : s.Inv) {w : Word} {t : State} (ht : writeCmd w s = .next t) : t.Inv := by
  rcases writeCmd_cases ht with ⟨-, rfl⟩ | ⟨ha, rfl⟩ | ⟨hc, rfl⟩ | ⟨hc, rfl⟩ | ⟨ha, rfl⟩ | ⟨-, rfl⟩
  · exact h
  · exact h.acceptPrepare ha
  · exact h.jointStart hc
  · exact h.raiseFault (by rw [hc]; rfl) (by decide) _
  · exact h.raiseFault (Ctl.not_started_of_accepts ha) (by decide) _
  · exact h.setIgn

theorem State.Inv.hostWrite_next (h : s.Inv) {offset : Nat} {w : Word} {t : State} (ht : hostWrite offset w s = .next t) :
    t.Inv := by
  rcases hostWrite_effect ht with ⟨i, e, rfl⟩ | ⟨-, hw⟩ | ⟨ha, _, _, _, _, _, _, rfl⟩ | ⟨-, rfl⟩
  · exact h.setOutside s.host s.rst s.readData i e
  · exact h.writeCmd_next hw
  · exact h.reconfigured ha ..
  · exact h.setIgn

theorem State.Inv.hostEvent_next (h : s.Inv) {e : HostEvent} (he : e ≠ .edge) {t : State}
    (ht : hostEvent e s = .next t) : t.Inv := by
  rcases hostEvent_effect he ht with ⟨rst, data, rfl⟩ | ⟨-, offset, w, -, -, hw⟩
  · exact h.setOutside s.host rst data s.tblIndex s.encIn
  · exact h.hostWrite_next hw

/-! ### The countdown -/

/-- What a PREPARE that succeeds has made of `s` (44_transmitter.md R239). -/
structure PrepareResult (s t : State) : Prop where
  frame : t = { s with
    divA := t.divA, divB := t.divB, sample := t.sample, word := t.word, valid := true, ctl := .ready }
  divisorsLegal : 256 ≤ t.divA.toNat ∧ 256 ≤ t.divB.toNat
  sizeLegal : 1 ≤ s.tableLen ∧ s.tableLen ≤ s.params.tableCap
  tablesCanonical : t.sample.wf = true ∧ t.word.wf = true
  tablesCoherent : t.TablesCoherent

/-- The sample at an index is the rounded value, where it is finite and within the ceiling (41_synthesizer.md R154, R155). -/
theorem sampleAt_eq_some {sign : CubicSign} {step af : F32} {ceiling i : Nat} {r : Int} :
    sampleAt sign step af ceiling i = some r ↔
      (sampleValue sign step af i).isFinite = true ∧ (sampleValue sign step af i).roundHalfAway.natAbs ≤ ceiling ∧
        (sampleValue sign step af i).roundHalfAway = r := by
  simp [sampleAt]

/-- A sample within a legal ceiling is within it as a table entry too (41_synthesizer.md R151, R154). -/
theorem sampleAt_within {sign : CubicSign} {step af : F32} {ceiling i : Nat} {is24Bit : Bool} {r : Int}
    (hlegal : ceiling ≤ ceilMax is24Bit) (hr : sampleAt sign step af ceiling i = some r) :
    (BitVec.ofInt 32 r).toInt.natAbs ≤ ceiling := by
  obtain ⟨-, hle, rfl⟩ := sampleAt_eq_some.1 hr
  have hmax : ceilMax is24Bit < 2 ^ 31 := by cases is24Bit <;> decide
  rw [BitVec.toInt_ofInt, Int.bmod_eq_of_le] <;> omega

/-- PREPARE completion in full: its result stands, or one fault has been raised over what earlier parts wrote. -/
theorem completePrepare_result (hsample : s.sample.wf = true) (hword : s.word.wf = true) :
    PrepareResult s (completePrepare s) ∨
    ∃ (a b : BitVec 24) (v : Table) (c : Cause) (info : Word), c ≠ .none ∧ v.wf = true ∧
      completePrepare s = ({ s with divA := a, divB := b, sample := v } : State).raiseFault c info := by
  rcases completePrepare_cases s with
    ⟨fs, fbck, ia, fa, ib, fb, v, w, -, hA, hB, hlen, hcap, hceil, hsynth, hdone, hpass⟩ | ⟨a, b, v, c, info, hne, hv, he⟩
  · obtain ⟨-, hvwf, hsamples, -⟩ := synthFrom_ok (t := { s with divA := d256Of ia fa, divB := d256Of ib fb, sample := v })
      (s := { s with divA := d256Of ia fa, divB := d256Of ib fb }) hsample hsynth
    obtain ⟨w', hw', hwwf, hwords, -⟩ := encodeFrom_spec s.tableLen 0
      { s with divA := d256Of ia fa, divB := d256Of ib fb, sample := v } hword
    obtain rfl : w = w' := congrArg State.word (hpass.symm.trans hw')
    rw [hdone]
    refine .inl ⟨rfl, ⟨d256Of_legal hA, d256Of_legal hB⟩, ⟨hlen, hcap⟩, ⟨hvwf, hwwf⟩, fun _ => ⟨hceil, fun i hi => ?_⟩⟩
    obtain ⟨r, hr, hread⟩ := hsamples i (Nat.zero_le i) (by rw [Nat.zero_add]; exact hi)
    exact ⟨hwords i (Nat.zero_le i) (by rw [Nat.zero_add]; exact hi), hread ▸ sampleAt_within hceil hr⟩
  · exact .inr ⟨a, b, v, c, info, hne, hv hsample, he⟩

/-- What the countdown can do in BUSY, in a state of the invariant: one more tick of it, a PREPARE result, or a fault. -/
theorem State.Inv.countdown_busy (h : s.Inv) (hc : s.ctl = .busy) :
    (2 ≤ s.busyLeft ∧ s.countdown = { s with busyLeft := s.busyLeft - 1 }) ∨
    PrepareResult { s with busyLeft := 0 } s.countdown ∨
    ∃ (a b : BitVec 24) (v : Table) (c : Cause) (info : Word), c ≠ .none ∧ v.wf = true ∧
      s.countdown = ({ s with busyLeft := 0, divA := a, divB := b, sample := v } : State).raiseFault c info := by
  rcases Nat.lt_or_eq_of_le (h.busyCounts hc) with hleft | hleft
  · exact .inl ⟨hleft, countdown_wait hc hleft⟩
  · obtain ⟨hsample, hword⟩ := h.tablesCanonical
    rw [countdown_last hc hleft.symm]
    exact .inr (completePrepare_result (s := { s with busyLeft := 0 }) hsample hword)

theorem countdown_of_not_busy (hc : s.ctl ≠ .busy) : s.countdown = s := if_neg hc

/-- The countdown starts no sequencer. -/
theorem State.Inv.countdown_stopped (h : s.Inv) (hs : s.ctl.started = false) : s.countdown.ctl.started = false := by
  by_cases hc : s.ctl = .busy
  · rcases h.countdown_busy hc with ⟨-, he⟩ | hp | ⟨_, _, _, _, _, -, -, he⟩
    · rw [he]; exact hs
    · rw [hp.frame]; rfl
    · rw [he]; rfl
  · rwa [countdown_of_not_busy hc]

theorem State.Inv.countdown (h : s.Inv) : s.countdown.Inv := by
  by_cases hc : s.ctl = .busy
  · have hs : s.ctl.started = false := by rw [hc]; rfl
    rcases h.countdown_busy hc with ⟨hleft, he⟩ | hp | ⟨a, b, v, c, info, hne, hv, he⟩
    · rw [he]
      exact { h with busyCounts := fun _ => Nat.le_sub_one_of_lt hleft }
    · rw [hp.frame]
      exact {
        h.restate (c := .ready) (left := 0) hs rfl (iff_of_true (h.causeIffFault.2 (by rw [hc]; nofun)) nofun)
          h.infoNeedsFault nofun (fun _ => ⟨hp.sizeLegal.1, hp.sizeLegal.2, hp.divisorsLegal⟩) with
        tablesCanonical := hp.tablesCanonical }
    · rw [he]
      exact {
        h.restate (c := .fault) (cause := c) (info := info) (left := 0) (divA := a) (divB := b) hs rfl
          (iff_of_false hne (· rfl)) (absurd · hne) nofun nofun with
        tablesCanonical := ⟨hv, h.tablesCanonical.2⟩ }
  · rwa [countdown_of_not_busy hc]

/-- A base tick before START is its countdown alone. -/
theorem State.Inv.baseTick_stopped (h : s.Inv) (hs : s.ctl.started = false) : baseTick s = .next s.countdown := by
  have hcs := h.countdown_stopped hs
  obtain ⟨hA, hB⟩ := h.countdown.runs_of_stopped hcs
  exact Machine.baseTick_stopped hA hB hcs

end Sys2Proof.Machine
end

section
/-! PROOF. Every step keeps the invariant: the base tick from START on, and O57. -/
namespace Sys2Proof.Machine
variable {s t : State}

/-! ### TXQ and UNF in a micro-step -/

/-- A micro-instruction takes at most the head off TXQ, and does not underrun where a word is there while STREAMING. -/
theorem exec_queue {i : Instr} (hi : i.format = .uop) (h : exec i s = .next t)
    (hq : s.ctl = .streaming → s.txq ≠ []) : t.unf = s.unf ∧ t.txq <:+ s.txq := by
  cases i <;> simp only [Instr.format, reduceCtorEq] at hi
  case setclk side d =>
    cases h
    simp
  case refill side d =>
    cases h
    split
    · rcases reload_cases (s.driveBck side) with ⟨w, rest, ht, hr⟩ | ⟨ht, hr⟩
      · rw [driveBck_txq] at ht
        simp [hr, ht]
      · rw [driveBck_txq] at ht
        have hc : s.ctl ≠ .streaming := fun hc => hq hc ht
        simp [hr, ht, hc]
    · simp
  case shift1 side d =>
    cases h
    simp

theorem microStep_queue {X : SeqId} (h : microStep X s = .next t) (hq : s.ctl = .streaming → s.txq ≠ []) :
    t.unf = s.unf ∧ t.txq <:+ s.txq := by
  rcases microStep_cases h with ⟨-, rfl⟩ | ⟨-, i, -, hi, hx⟩
  · cases X <;> exact ⟨rfl, List.suffix_refl _⟩
  · exact exec_queue (s := { s with active := X }) hi hx hq

theorem microStepIf_queue {b : Bool} {X : SeqId} (h : microStepIf b X s = .next t)
    (hq : s.ctl = .streaming → s.txq ≠ []) : t.unf = s.unf ∧ t.txq <:+ s.txq := by
  cases b with
  | false => cases h; exact ⟨rfl, List.suffix_refl _⟩
  | true => exact microStep_queue h hq

/-- Program B is SETCLK only: SEQ_B does not touch the queue (30_encoding.md R106). -/
theorem microStepIf_B_queue {b : Bool} (hrom : s.romB = romBInit) (h : microStepIf b .B s = .next t) :
    t.unf = s.unf ∧ t.txq = s.txq := by
  cases b with
  | false => cases h; exact ⟨rfl, rfl⟩
  | true =>
    rcases microStep_cases h with ⟨-, rfl⟩ | ⟨-, i, hi, -, hx⟩
    · exact ⟨rfl, rfl⟩
    · rw [rom_B, hrom, decodeUop_romB] at hi
      cases hi
      cases hx
      simp

/-! ### The parts of a base tick from START on -/

/-- The control frame as a record update: the fields a micro-step may write. -/
theorem State.SameControl.eq_update (h : s.SameControl t) : t = { s with
    unf := t.unf, txq := t.txq, seqA := t.seqA, seqB := t.seqB, osr := t.osr, osrCnt := t.osrCnt, data := t.data,
    bck := t.bck, lrck := t.lrck, active := t.active } := by
  cases s
  cases t
  simp_all only [State.SameControl]

theorem State.SameControl.ctl_eq (h : s.SameControl t) : t.ctl = s.ctl := by
  obtain ⟨-, -, -, hc, -⟩ := h
  exact hc

/-- A micro-step of either sequencer keeps the run bits and the accumulators of both. -/
theorem StepFrame.sequencers {X : SeqId} (hf : StepFrame X s t) :
    (t.seqA.run = s.seqA.run ∧ t.seqA.acc = s.seqA.acc) ∧ t.seqB.run = s.seqB.run ∧ t.seqB.acc = s.seqB.acc := by
  obtain ⟨-, hother, hown⟩ := hf
  cases X with
  | A =>
    have hB : t.seqB = s.seqB := hother .B nofun
    exact ⟨hown, by rw [hB], by rw [hB]⟩
  | B =>
    have hA : t.seqA = s.seqA := hother .A nofun
    exact ⟨by simp [hA], hown⟩

/-- From START on, a micro-step that does not underrun keeps the invariant, but for the words that it takes off TXQ. -/
theorem StepFrame.inv {X : SeqId} (hf : StepFrame X s t) (h : s.Inv) (hs : s.ctl.started = true)
    (hunf : t.unf = s.unf) : ({ t with txq := s.txq } : State).Inv := by
  obtain ⟨⟨hrunA, haccA⟩, hrunB, haccB⟩ := hf.sequencers
  rw [hf.control.eq_update]
  exact { h with
    runsIffStarted := ⟨hrunA.trans h.runsIffStarted.1, hrunB.trans h.runsIffStarted.2⟩
    dividerBound := fun hc => by simpa [haccA, haccB] using h.dividerBound hc
    noUnderrun := hunf.trans h.noUnderrun
    beforeStart := fun hc => absurd hs (hc ▸ Bool.false_ne_true) }

/-- acc_X after a base tick (43_sequencers.md R191); with acc_X < D256_X nothing is cut off. -/
theorem toNat_dividerNext {d acc : BitVec 24} (hacc : acc.toNat < d.toNat) :
    (dividerNext d acc).toNat =
      if d.toNat ≤ acc.toNat + 256 then acc.toNat + 256 - d.toNat else acc.toNat + 256 := by
  have hlt := d.isLt
  by_cases hf : d.toNat ≤ acc.toNat + 256 <;>
    simp only [dividerNext, dividerFires, dividerSum, hf, decide_true, decide_false, if_true, if_false,
      Bool.false_eq_true, BitVec.toNat_ofNat] <;>
    rw [Nat.mod_eq_of_lt (by omega)]

/-- A divider stays below its divisor (43_sequencers.md R191). -/
theorem dividerNext_lt {d acc : BitVec 24} (hd : 256 ≤ d.toNat) (hacc : acc.toNat < d.toNat) :
    (dividerNext d acc).toNat < d.toNat := by
  rw [toNat_dividerNext hacc]
  split <;> omega

/-- The dividers' part of a base tick from START on. -/
theorem State.Inv.tickFront (h : s.Inv) (hs : s.ctl.started = true) : s.tickFront.Inv := by
  obtain ⟨hrunA, hrunB⟩ := h.runsIffStarted
  have hb : s.ctl ≠ .busy := fun he => by rw [he] at hs; cases hs
  rw [tickFront_running hb (hrunA.trans hs) (hrunB.trans hs)]
  exact { h with
    dividerBound := fun hc => by
      obtain ⟨-, -, hA, hB⟩ := h.preparedSizes (Ctl.prepared_of_started hc)
      obtain ⟨haccA, haccB⟩ := h.dividerBound hc
      exact ⟨dividerNext_lt hA haccA, dividerNext_lt hB haccB⟩
    beforeStart := fun hc => absurd hs (hc ▸ Bool.false_ne_true) }

/-- The invariant but for words missing from TXQ: what holds between the pop of a REFILL and FEEDER's push. -/
def State.InvUpToQueue (s : State) : Prop := ∃ q, s.txq.length ≤ q.length ∧ ({ s with txq := q } : State).Inv

/-- SEQ_A's micro-step takes at most a word off TXQ, and finds one while STREAMING (44_transmitter.md R244). -/
theorem State.Inv.microStepIf_A (h : s.Inv) (hs : s.ctl.started = true) {b : Bool} (ht : microStepIf b .A s = .next t) :
    t.InvUpToQueue :=
  have ⟨hunf, hq⟩ := microStepIf_queue ht h.queueWhileStreaming
  ⟨s.txq, hq.length_le, (microStepIf_frame ht).inv h hs hunf⟩

/-- SEQ_B's micro-step leaves TXQ alone. -/
theorem State.Inv.microStepIf_B (h : s.Inv) (hs : s.ctl.started = true) {b : Bool} (ht : microStepIf b .B s = .next t) :
    t.Inv := by
  obtain ⟨hunf, hq⟩ := microStepIf_B_queue h.romsFixed.2 ht
  have hinv := (microStepIf_frame ht).inv h hs hunf
  rwa [← hq] at hinv

/-- At the end of the settle delay STREAMING begins with an empty queue, which FEEDER is still to fill in this tick. -/
theorem State.InvUpToQueue.settle (h : s.InvUpToQueue) (hs : s.ctl.started = true) :
    s.settle.InvUpToQueue := by
  obtain ⟨q, hlen, hinv⟩ := h
  rcases settle_cases s with ⟨-, he⟩ | ⟨hc, -, he⟩ | ⟨hc, hne, he⟩ <;> rw [he]
  · exact ⟨q, hlen, hinv⟩
  · have hq : q = [] := hinv.queueBeforeStreaming (by rw [hc]; nofun)
    refine ⟨[0], by simp_all, ?_⟩
    have hp : s.ctl.prepared = true := Ctl.prepared_of_started hs
    exact { hinv with
      runsIffStarted := hinv.runsIffStarted.imp (·.trans hs) (·.trans hs)
      validIffPrepared := hinv.validIffPrepared.trans hp
      causeIffFault := iff_of_true (hinv.causeIffFault.2 (by rw [hc]; nofun)) nofun
      busyCounts := nofun
      preparedSizes := fun _ => hinv.preparedSizes hp
      feederBelowLen := fun _ => hinv.feederBelowLen hs
      dividerBound := fun _ => hinv.dividerBound hs
      queueBound := hinv.paramsLegal.1
      queueBeforeStreaming := absurd rfl
      queueWhileStreaming := nofun
      beforeStart := nofun }
  · have hbound := hinv.settleBound
    exact ⟨q, hlen, { hinv with settleBound := Nat.lt_of_le_of_ne hbound hne }⟩

/-- FEEDER gives the whole invariant back: in STREAMING there is a word in the queue after it, since TXQ_DEPTH ≥ 1
(44_transmitter.md R244). -/
theorem State.InvUpToQueue.feed_next (h : s.InvUpToQueue) (ht : feed s = .next t) : t.Inv := by
  obtain ⟨q, hlen, hinv⟩ := h
  have hdepth : 1 ≤ s.params.txqDepth := hinv.paramsLegal.1
  rcases feed_cases ht with ⟨hfull, rfl⟩ | ⟨hc, hroom, -, hne, rfl⟩
  · exact { hinv with
      queueBound := Nat.le_trans hlen hinv.queueBound
      queueBeforeStreaming := fun hc => by
        have hq : q = [] := hinv.queueBeforeStreaming hc
        simpa [hq] using hlen
      queueWhileStreaming := fun hc hq => hfull ⟨hc, by rw [State.qLevel, hq]; exact hdepth⟩ }
  · have hpos : 0 < s.tableLen := Nat.pos_of_ne_zero hne
    have hmod : (s.j + 1) % s.tableLen < s.tableLen := Nat.mod_lt _ hpos
    have hcap : s.tableLen ≤ s.params.tableCap := (hinv.preparedSizes (by rw [hc]; rfl)).2.1
    have hpush : (s.txq ++ [s.word.read s.j]).length ≤ s.params.txqDepth := by
      rw [List.length_append]
      exact hroom
    exact { hinv with
      feederIndex := Nat.lt_of_lt_of_le hmod hcap
      feederBelowLen := fun _ => hmod
      queueBound := hpush
      queueBeforeStreaming := fun he => absurd hc he
      queueWhileStreaming := fun _ => by simp }

theorem State.Inv.baseTick_next (h : s.Inv) (ht : baseTick s = .next t) : t.Inv := by
  cases hs : s.ctl.started with
  | false =>
    rw [h.baseTick_stopped hs] at ht
    cases ht
    exact h.countdown
  | true =>
    obtain ⟨u, v, hu, hv, hf⟩ := baseTick_cases ht
    have hc : s.countdown = s := countdown_of_not_busy fun he => by rw [he] at hs; cases hs
    have hfront : s.tickFront.ctl.started = true := by rw [tickFront_eq, hc]; exact hs
    have hus : u.ctl.started = true := (microStepIf_frame hu).control.ctl_eq ▸ hfront
    have hvs : v.ctl.started = true := (microStepIf_frame hv).control.ctl_eq ▸ hus
    have huInv := (h.tickFront hs).microStepIf_B hfront hu
    have hvInv := huInv.microStepIf_A hus hv
    exact (hvInv.settle hvs).feed_next hf

theorem State.Inv.clockEdge_next (h : s.Inv) (ht : clockEdge s = .next t) : t.Inv := by
  rcases clockEdge_cases ht with ⟨-, rfl⟩ | ⟨-, ht⟩
  · exact State.resetEdge_inv h.paramsLegal h.romsFixed
  · exact h.baseTick_next ht

/-- Every step keeps the invariant. -/
theorem State.Inv.step_next (h : s.Inv) (ht : step s = .next t) : t.Inv := by
  have htake (rest : List HostEvent) : ({ s with host := rest } : State).Inv :=
    h.setOutside rest s.rst s.readData s.tblIndex s.encIn
  rcases step_cases ht with ⟨-, hc⟩ | ⟨e, rest, -, he, -, hx⟩
  · exact (htake _).clockEdge_next hc
  · exact (htake _).hostEvent_next he hx

/-- Settles O57: `State.Inv.step_next`, event by event. -/
theorem stepKeepsInv : Obligations.StepKeepsInv := by
  unfold Obligations.StepKeepsInv
  exact fun s t => State.Inv.step_next

end Sys2Proof.Machine
end

section
/-! PROOF. What a whole base tick leaves unchanged, and the two step statements read off it: the tables (O59) and IGN (O13). -/
namespace Sys2Proof.Machine
variable {s t : State}

/-! ### The frame of a base tick -/

theorem sameControl_tickFront (s : State) : s.countdown.SameControl s.tickFront := by
  rw [tickFront_eq]
  simp [State.SameControl]

theorem State.SameControl.trans {u : State} (h : s.SameControl t) (h' : t.SameControl u) : s.SameControl u := by
  cases s; cases t; cases u
  simp_all [State.SameControl]

/-- The settle step and FEEDER write STATE, settle_cnt, TXQ and j only, and STATE at the end of the settle delay only. -/
theorem feed_settle_frame (h : feed s.settle = .next t) :
    ∃ ctl settleCnt txq j, t = { s with ctl := ctl, settleCnt := settleCnt, txq := txq, j := j } ∧
      (ctl = s.ctl ∨ s.ctl = .settling ∧ ctl = .streaming) := by
  rcases settle_cases s with ⟨-, he⟩ | ⟨hc, -, he⟩ | ⟨-, -, he⟩ <;> rw [he] at h <;>
    rcases feed_cases h with ⟨-, rfl⟩ | ⟨-, -, -, -, rfl⟩
  · exact ⟨_, _, _, _, rfl, .inl rfl⟩
  · exact ⟨_, _, _, _, rfl, .inl rfl⟩
  · exact ⟨_, _, _, _, rfl, .inr ⟨hc, rfl⟩⟩
  · exact ⟨_, _, _, _, rfl, .inr ⟨hc, rfl⟩⟩
  · exact ⟨_, _, _, _, rfl, .inl rfl⟩
  · exact ⟨_, _, _, _, rfl, .inl rfl⟩

/-- After its countdown, a base tick writes the transmitter's and the sequencers' state only: no register but STATE, at the end
of the settle delay, and UNF, and no table (43_sequencers.md R204). -/
theorem baseTick_frame (h : baseTick s = .next t) :
    t = { s.countdown with
      ctl := t.ctl, unf := t.unf, settleCnt := t.settleCnt, txq := t.txq, j := t.j, seqA := t.seqA, seqB := t.seqB,
      osr := t.osr, osrCnt := t.osrCnt, data := t.data, bck := t.bck, lrck := t.lrck, active := t.active } ∧
    (t.ctl = s.countdown.ctl ∨ s.countdown.ctl = .settling ∧ t.ctl = .streaming) := by
  obtain ⟨u, v, hu, hv, hf⟩ := baseTick_cases h
  have hctl : s.countdown.SameControl v :=
    ((sameControl_tickFront s).trans (microStepIf_frame hu).control).trans (microStepIf_frame hv).control
  obtain ⟨ctl, settleCnt, txq, j, rfl, hc⟩ := feed_settle_frame hf
  refine ⟨?_, hctl.ctl_eq ▸ hc⟩
  rw [hctl.eq_update]

/-! ### The tables -/

/-- The countdown keeps the tables coherent: where it completes a PREPARE, the new ones are. -/
theorem State.Inv.countdown_tablesCoherent (h : s.Inv) (hs : s.TablesCoherent) : s.countdown.TablesCoherent := by
  by_cases hc : s.ctl = .busy
  · rcases h.countdown_busy hc with ⟨-, he⟩ | hp | ⟨a, b, v, c, info, -, -, he⟩
    · rw [he]; exact hs
    · exact hp.tablesCoherent
    · rw [he]; exact nofun
  · rwa [countdown_of_not_busy hc]

theorem State.Inv.clockEdge_tablesCoherent (h : s.Inv) (hs : s.TablesCoherent) (ht : clockEdge s = .next t) :
    t.TablesCoherent := by
  rcases clockEdge_cases ht with ⟨-, rfl⟩ | ⟨-, ht⟩
  · exact nofun
  · obtain ⟨he, hc⟩ := baseTick_frame ht
    rw [he]
    intro hp
    refine h.countdown_tablesCoherent hs ?_
    rcases hc with hc | ⟨hc, -⟩
    · rw [← hc]; exact hp
    · rw [hc]; rfl

/-- A write leaves the tables and the configuration behind them alone while a PREPARE result stands. -/
theorem State.TablesCoherent.hostWrite_next (hs : s.TablesCoherent) {offset : Nat} {w : Word}
    (ht : hostWrite offset w s = .next t) : t.TablesCoherent := by
  rcases hostWrite_effect ht with ⟨i, e, rfl⟩ | ⟨-, hw⟩ | ⟨-, _, _, _, _, _, _, rfl⟩ | ⟨-, rfl⟩
  · exact hs
  · rcases writeCmd_cases hw with ⟨-, rfl⟩ | ⟨-, rfl⟩ | ⟨hc, rfl⟩ | ⟨-, rfl⟩ | ⟨-, rfl⟩ | ⟨-, rfl⟩
    · exact hs
    · exact nofun
    · exact fun _ => hs (by rw [hc]; rfl)
    · exact nofun
    · exact nofun
    · exact hs
  · exact nofun
  · exact hs

/-- Settles O59: a new PREPARE result is coherent by its synthesis and encoding passes, and nothing writes a table or the
configuration while it stands. -/
theorem stepKeepsTablesCoherent : Obligations.StepKeepsTablesCoherent := by
  unfold Obligations.StepKeepsTablesCoherent
  intro s t h hs ht
  rcases step_cases ht with ⟨-, hc⟩ | ⟨e, rest, -, he, -, hx⟩
  · exact (h.setOutside s.host.tail s.rst s.readData s.tblIndex s.encIn).clockEdge_tablesCoherent hs hc
  · rcases hostEvent_effect he hx with ⟨_, _, rfl⟩ | ⟨-, offset, w, -, -, hw⟩
    · exact hs
    · exact State.TablesCoherent.hostWrite_next (s := { s with host := rest }) hs hw

/-! ### IGN -/

theorem countdown_ign (s : State) : s.countdown.ign = s.ign := by
  simp only [State.countdown]
  split
  · split
    · rcases completePrepare_cases { s with busyLeft := s.busyLeft - 1 } with
        ⟨_, _, _, _, _, _, _, _, -, -, -, -, -, -, -, he, -⟩ | ⟨_, _, _, _, _, -, -, he⟩
      · rw [he]
      · rw [he]; rfl
    · rfl
  · rfl

theorem baseTick_ign (h : baseTick s = .next t) : t.ign = s.ign := by
  obtain ⟨he, -⟩ := baseTick_frame h
  rw [he]
  exact countdown_ign s

/-- No write clears IGN (44_transmitter.md R242). -/
theorem hostWrite_ign {offset : Nat} {w : Word} (hs : s.ign = true) (h : hostWrite offset w s = .next t) :
    t.ign = true := by
  rcases hostWrite_effect h with ⟨i, e, rfl⟩ | ⟨-, hw⟩ | ⟨-, _, _, _, _, _, _, rfl⟩ | ⟨-, rfl⟩
  · exact hs
  · rcases writeCmd_cases hw with ⟨-, rfl⟩ | ⟨-, rfl⟩ | ⟨-, rfl⟩ | ⟨-, rfl⟩ | ⟨-, rfl⟩ | ⟨-, rfl⟩
    any_goals exact hs
    rfl
  · exact hs
  · rfl

/-- IGN stays set until reset (44_transmitter.md R242). -/
theorem step_ign (hs : s.ign = true) (h : step s = .next t) : t.ign = true ∨ s.resetNext := by
  rcases step_cases h with ⟨hedge, hc⟩ | ⟨e, rest, -, he, -, hx⟩
  · rcases clockEdge_cases hc with ⟨hr, -⟩ | ⟨-, hb⟩
    · exact .inr ⟨hr, hedge⟩
    · exact .inl ((baseTick_ign hb).trans hs)
  · rcases hostEvent_effect he hx with ⟨_, _, rfl⟩ | ⟨-, offset, w, -, -, hw⟩
    · exact .inl hs
    · exact .inl (hostWrite_ign (s := { s with host := rest }) hs hw)

end Sys2Proof.Machine
end

section
/-! PROOF. The host port: the register at an offset, what a read of it returns and what a write to it does
(10_state.md R38 to R55). -/
namespace Sys2Proof.Machine
variable {s : State}

/-! ### Registers by offset -/

@[simp] theorem regAt_offset (r : Reg) : regAt r.offset = some r := by cases r <;> rfl

theorem regAt_reserved {offset : Nat} (h : 0x40 ≤ offset) : regAt offset = none := by
  unfold regAt
  split
  any_goals omega
  rfl

theorem hostWrite_offset (r : Reg) (w : Word) (s : State) : hostWrite r.offset w s = writeReg r w s := by
  simp [hostWrite]

theorem hostRead_offset {r : Reg} {v : Word} (h : readReg r s = some v) :
    hostRead r.offset s = .next { s with readData := v } := by
  simp [hostRead, h]

/-! ### Writes -/

theorem configWrite_idle {store : State → State} (hc : s.ctl = .idle) : configWrite store s = store s := by
  simp [configWrite, hc]

theorem configWrite_ignored {store : State → State} (ha : s.ctl.accepts = false) : configWrite store s = s.setIgn := by
  rcases configWrite_cases store s with ⟨hc, -⟩ | ⟨hc, -⟩ | ⟨-, -, he⟩
  · rw [hc] at ha; cases ha
  · rw [hc] at ha; cases ha
  · exact he

theorem writeCmd_answers (w : Word) (s : State) : ∃ t, writeCmd w s = .next t := by
  unfold writeCmd
  split
  · exact exec_answers _ _
  · exact ⟨_, rfl⟩

/-- A CMD write where no command is accepted only sets IGN (44_transmitter.md R242). -/
theorem writeCmd_ignored (ha : s.ctl.accepts = false) (w : Word) : writeCmd w s = .next s.setIgn := by
  obtain ⟨t, ht⟩ := writeCmd_answers w s
  have hready : s.ctl ≠ .ready := fun hc => by rw [hc] at ha; cases ha
  have hidle : s.ctl ≠ .idle := fun hc => by rw [hc] at ha; cases ha
  have hc := writeCmd_cases ht
  simp only [ha, hready, hidle, Bool.false_eq_true, false_and, false_or, true_and] at hc
  rw [ht, hc]

/-- Settles O13: no write to a register that is not accepted does more than set IGN, and `step_ign` keeps it. -/
theorem ignFlag : Obligations.IgnFlag := by
  unfold Obligations.IgnFlag
  refine ⟨fun s w r hr hidle hready => ?_, fun s t => step_ign, fun s w => ⟨rfl, rfl⟩, fun s w offset ho => ?_⟩
  · have ha := Ctl.not_accepts hidle hready
    rw [hostWrite_offset]
    cases r
    case cmd => exact writeCmd_ignored ha w
    case ctrl | baseClk | toneFreq | amplitude | ampCeiling | tableSize =>
      exact congrArg _ (configWrite_ignored ha)
    all_goals simp at hr
  · rcases ho with ho | ho
    · simp only [List.mem_cons, List.not_mem_nil, or_false] at ho
      rcases ho with rfl | rfl | rfl | rfl | rfl | rfl | rfl <;> rfl
    · simp [hostWrite, regAt_reserved ho]

/-- Settles O5: the write reaches `writeCmd` through an admitted access. -/
theorem stepRunsHostCommand : Obligations.StepRunsHostCommand := by
  unfold Obligations.StepRunsHostCommand
  intro s w rest i hrst hhost hdecode
  calc step s = hostEvent (.write 32 0x18 w) { s with host := rest } := by simp [step, hhost]
    _ = writeCmd w { s with host := rest } := by simp [hostEvent, hostAccess, hrst, admitted, hostWrite, regAt, writeReg]
    _ = exec i { s with host := rest } := by simp only [writeCmd, hdecode]

/-! ### Reads -/

/-- In a state of the invariant a table window always answers (20_memory.md R78). -/
theorem State.Inv.window_eq (h : s.Inv) (t : Table) :
    s.window t = some (if s.valid = true ∧ s.tblIndex.toNat < s.tableLen then t.read s.tblIndex.toNat else 0) := by
  unfold State.window
  split
  · rename_i hw
    obtain ⟨hvalid, hlt⟩ := hw
    obtain ⟨-, hcap, -⟩ := h.preparedSizes (h.validIffPrepared ▸ hvalid)
    simp [memRead, Nat.lt_of_lt_of_le hlt hcap]
  · rfl

theorem State.Inv.readReg_answers (h : s.Inv) (r : Reg) : ∃ v, readReg r s = some v := by
  cases r
  case tblSample => exact ⟨_, h.window_eq s.sample⟩
  case tblWord => exact ⟨_, h.window_eq s.word⟩
  all_goals exact ⟨_, rfl⟩

/-- The low bits of a widened field are the field, and the bits above it are 0. -/
theorem extractLsb'_setWidth {n m : Nat} (x : BitVec n) :
    (x.setWidth (n + m)).extractLsb' 0 n = x ∧ (x.setWidth (n + m)).extractLsb' n m = 0 := by
  constructor <;> ext i hi
  · simp [hi]; omega
  · simp

/-- Settles O16: by the register read; a window answers by `State.Inv.window_eq`. -/
theorem hostReadHasNoSideEffect : Obligations.HostReadHasNoSideEffect := by
  unfold Obligations.HostReadHasNoSideEffect
  refine ⟨fun s offset h => ?_, fun s => ?_⟩
  · unfold hostRead
    cases hr : regAt offset with
    | none => exact ⟨0, rfl⟩
    | some r =>
      obtain ⟨v, hv⟩ := h.readReg_answers r
      exact ⟨v, by simp only [hv]⟩
  · have hdivA := extractLsb'_setWidth (m := 8) s.divA
    have hdivB := extractLsb'_setWidth (m := 8) s.divB
    have hctrl := extractLsb'_setWidth (m := 28) s.ctrl
    exact ⟨rfl, rfl, ⟨_, rfl, hdivA⟩, ⟨_, rfl, hdivB⟩, ⟨_, rfl, hctrl⟩, rfl, rfl, rfl, rfl, rfl, rfl, rfl⟩

/-- A configuration register that IDLE has stored reads as it was stored. -/
theorem stored_then_read {r : Reg} {w v : Word} {store : State → State} (hc : s.ctl = .idle)
    (hw : writeReg r w s = .next (configWrite store s)) (hr : readReg r (store s) = some v) :
    ∃ t, hostWrite r.offset w s = .next t ∧ hostRead r.offset t = .next { t with readData := v } :=
  ⟨store s, by rw [hostWrite_offset, hw, configWrite_idle hc], hostRead_offset hr⟩

/-- Settles O18: IDLE stores the word as it is, and CTRL its low four bits. -/
theorem writeThenRead : Obligations.WriteThenRead := by
  unfold Obligations.WriteThenRead
  intro s w hc
  refine ⟨?_, fun offset ho => ?_⟩
  · have hand : (w &&& 0xF).toNat = w.toNat % 16 := Nat.and_two_pow_sub_one_eq_mod _ 4
    have hv : (w.setWidth 4).setWidth 32 = w &&& 0xF := by
      apply BitVec.eq_of_toNat_eq
      rw [hand, BitVec.toNat_setWidth, BitVec.toNat_setWidth]
      omega
    exact stored_then_read (r := .ctrl) hc rfl (congrArg some hv)
  · simp only [List.mem_cons, List.not_mem_nil, or_false] at ho
    rcases ho with rfl | rfl | rfl | rfl | rfl | rfl | rfl
    · exact stored_then_read (r := .baseClk) hc rfl rfl
    · exact stored_then_read (r := .toneFreq) hc rfl rfl
    · exact stored_then_read (r := .amplitude) hc rfl rfl
    · exact stored_then_read (r := .ampCeiling) hc rfl rfl
    · exact stored_then_read (r := .tableSize) hc rfl rfl
    · exact ⟨_, rfl, rfl⟩
    · exact ⟨_, rfl, rfl⟩

/-- The fields of the STATUS word (10_state.md R47), bits of one flag each apart. -/
theorem statusWord_fields (s : State) :
    s.statusWord.extractLsb' 0 3 = s.ctl.code ∧ s.statusWord.extractLsb' 4 4 = s.cause.code ∧
    s.statusWord.extractLsb' 11 5 = 0 ∧ s.statusWord.extractLsb' 16 8 = BitVec.ofNat 8 s.qLevel ∧
    s.statusWord.extractLsb' 24 8 = 0 := by
  unfold State.statusWord
  refine ⟨?_, ?_, ?_, ?_, ?_⟩
  · rw [BitVec.extractLsb'_append_eq_of_add_le (w := 3) (by decide), BitVec.extractLsb'_eq_self]
  all_goals
    rw [BitVec.extractLsb'_append_eq_of_le (w := 3) (by decide)]
    simp (disch := decide) only [BitVec.extractLsb'_append_eq_of_le, BitVec.extractLsb'_append_eq_of_add_le,
      Nat.reduceSub, BitVec.extractLsb'_eq_self]

/-- The flags of the STATUS word, and its reserved bit 3 (10_state.md R47). -/
theorem statusWord_flags (s : State) :
    s.statusWord.getLsbD 3 = false ∧ s.statusWord.getLsbD 8 = s.ign ∧ s.statusWord.getLsbD 9 = s.unf ∧
    s.statusWord.getLsbD 10 = s.valid := by
  simp only [State.statusWord, BitVec.getLsbD_append]
  simp

/-- Settles O17: the fields of the STATUS word, with the level of TXQ below 2^8 by the invariant. -/
theorem statusRead : Obligations.StatusRead := by
  unfold Obligations.StatusRead
  intro s h
  obtain ⟨hctl, hcause, hres, hlevel, htop⟩ := statusWord_fields s
  obtain ⟨hbit3, hign, hunf, hvalid⟩ := statusWord_flags s
  obtain ⟨-, hdepth, -⟩ := h.paramsLegal
  have hlen : s.txq.length < 2 ^ 8 := Nat.lt_of_le_of_lt (Nat.le_trans h.queueBound hdepth) (by decide)
  refine ⟨s.statusWord, rfl, ?_, hbit3, ?_, fun hc => ?_, hign, hunf, hvalid, hres, ?_, htop⟩
  · rw [hctl]
    cases s.ctl <;> rfl
  · rw [hcause]
    cases s.cause <;> rfl
  · rw [hcause, h.causeIffFault.2 hc]
    rfl
  · rw [hlevel, BitVec.toNat_ofNat, State.qLevel, Nat.mod_eq_of_lt hlen]

/-- Settles O19: `State.Inv.window_eq` for both windows. -/
theorem tableWindowRead : Obligations.TableWindowRead := by
  unfold Obligations.TableWindowRead
  intro s h
  have hread (r : Reg) (t : Table) (hr : readReg r s = s.window t) :
      hostRead r.offset s = .next { s with
        readData := if s.valid = true ∧ s.tblIndex.toNat < s.tableLen then t.read s.tblIndex.toNat else 0 } :=
    hostRead_offset (hr.trans (h.window_eq t))
  have hsample := hread .tblSample s.sample rfl
  have hword := hread .tblWord s.word rfl
  refine ⟨fun hvalid hlt => ?_, fun hout => ?_⟩
  · rw [if_pos ⟨hvalid, hlt⟩] at hsample hword
    exact ⟨hsample, hword⟩
  · have hnot : ¬ (s.valid = true ∧ s.tblIndex.toNat < s.tableLen) := by
      rintro ⟨hvalid, hlt⟩
      rcases hout with hv | hle
      · simp [hv] at hvalid
      · exact absurd hlt (Nat.not_lt.2 hle)
    rw [if_neg hnot] at hsample hword
    exact ⟨hsample, hword⟩

/-- Settles O54: R66's table is `State.reset`, field by field. -/
theorem resetValues : Obligations.ResetValues := by
  unfold Obligations.ResetValues
  simp [State.reset, Sequencer.reset]

end Sys2Proof.Machine
end

section
/-! PROOF. The closed form of the encoder (42_encoder.md R170 to R174), bit by bit: every step of it ORs bits of the sample
into their own places, and together the steps cover all 32. -/
namespace Sys2Proof.Machine

/-- A byte of `u` in its own place is the bits of `u` there. -/
theorem getLsbD_byteOf_shifted (u : Word) (k : Nat) {i : Nat} (hi : i < 32) :
    ((byteOf u k).setWidth 32 <<< (8 * k)).getLsbD i = (decide (i / 8 = k) && u.getLsbD i) := by
  simp only [byteOf, BitVec.getLsbD_shiftLeft, BitVec.getLsbD_setWidth, BitVec.getLsbD_extractLsb', hi, decide_true,
    Bool.true_and]
  by_cases hk : i / 8 = k
  · simp [hk, show ¬ i < 8 * k by omega, show i - 8 * k < 32 by omega, show i - 8 * k < 8 by omega,
      show 8 * k + (i - 8 * k) = i by omega]
  · by_cases hlo : i < 8 * k
    · simp [hlo, hk]
    · simp [hlo, hk, show ¬ i - 8 * k < 8 by omega]

/-- Step 1 of the encoder (R171): the bytes named in the list, in their own places. -/
theorem getLsbD_reassemble (u : Word) (ks : List Nat) {i : Nat} (hi : i < 32) :
    (reassemble u ks).getLsbD i = (ks.contains (i / 8) && u.getLsbD i) := by
  have hfold (acc : Word) :
      (ks.foldl (fun acc k => acc ||| ((byteOf u k).setWidth 32 <<< (8 * k))) acc).getLsbD i =
        (acc.getLsbD i || (ks.contains (i / 8) && u.getLsbD i)) := by
    induction ks generalizing acc with
    | nil => simp
    | cons k ks ih =>
      rw [List.foldl_cons, ih, BitVec.getLsbD_or, getLsbD_byteOf_shifted u k hi, List.contains_cons, Bool.or_assoc,
        ← Bool.and_or_distrib_right]
      rfl
  rw [reassemble, hfold]
  simp

/-- Seven bits of a byte and its top bit on its own are the byte. -/
theorem low_seven_or_top (b : Byte) :
    ((b &&& 0x7F).setWidth 32 <<< 24) ||| (if b &&& 0x80 ≠ 0 then ((1 <<< 31 : Nat) : Word) else 0) =
      b.setWidth 32 <<< 24 := by
  revert b
  decide

/-- Step 2 of the encoder (R172) ORs byte 3 into its place too. -/
theorem placeSign_reassemble (u : Word) : placeSign u (reassemble u [0, 1, 2]) = reassemble u [0, 1, 2, 3] := by
  have hlast : reassemble u [0, 1, 2, 3] = reassemble u [0, 1, 2] ||| (byteOf u 3).setWidth 32 <<< 24 := rfl
  rw [hlast, ← low_seven_or_top, ← BitVec.or_assoc]
  simp only [placeSign]
  split
  · rfl
  · exact (BitVec.or_zero).symm

/-- The four bytes of a word in their own places are the word. -/
theorem reassemble_all (u : Word) : reassemble u [0, 1, 2, 3] = u := by
  refine BitVec.eq_of_getLsbD_eq fun i hi => ?_
  have hbyte : i / 8 = 0 ∨ i / 8 = 1 ∨ i / 8 = 2 ∨ i / 8 = 3 := by omega
  rw [getLsbD_reassemble u _ hi]
  rcases hbyte with h | h | h | h <;> rw [h] <;> rfl

/-- The closed form (42_encoder.md R174): both modes put the whole sample together, and reverse it. -/
theorem encodeSample_eq (u : Word) (is24Bit : Bool) : encodeSample u is24Bit = rev32 u := by
  cases is24Bit
  · exact congrArg rev32 (reassemble_all u)
  · exact congrArg rev32 ((placeSign_reassemble u).trans (reassemble_all u))

/-- Settles O20: ENC_OUT reads the encoder's closed form. -/
theorem encoderPortRead : Obligations.EncoderPortRead := by
  unfold Obligations.EncoderPortRead
  exact fun s => hostRead_offset (r := .encOut) (congrArg some (encodeSample_eq s.encIn s.is24Bit))

end Sys2Proof.Machine
end

section
/-! PROOF. The port's admission rule and its reserved offsets (20_memory.md R72, R73), and every admitted event has a step
(70_reset_and_hazards.md R301, R302). -/
namespace Sys2Proof.Machine
variable {s : State}

/-! ### The admission rule -/

theorem admitted_iff {bits offset : Nat} :
    admitted bits offset = true ↔ bits = 32 ∧ offset % 4 = 0 ∧ offset ≤ 0xFC := by
  simp [admitted, and_assoc]

theorem hostAccess_of_admitted {bits offset : Nat} {act : State → Result} (hrst : s.rst = false)
    (ha : admitted bits offset = true) : hostAccess bits offset act s = act s := by
  simp [hostAccess, hrst, ha]

theorem hostAccess_refused {bits offset : Nat} {act : State → Result} (hrst : s.rst = false)
    (ha : admitted bits offset ≠ true) : hostAccess bits offset act s = .refused .accessForm := by
  simp [hostAccess, hrst, ha]

theorem step_event {e : HostEvent} {rest : List HostEvent} (hhost : s.host = e :: rest) :
    step s = hostEvent e { s with host := rest } := by
  simp only [step, hhost]

/-- Settles O8: `hostAccess` carries out exactly the form that `admitted_iff` spells out. -/
theorem onlyAlignedWordAccessesAdmitted : Obligations.OnlyAlignedWordAccessesAdmitted := by
  unfold Obligations.OnlyAlignedWordAccessesAdmitted
  intro s bits offset w rest hrst
  simp only [← admitted_iff]
  refine ⟨fun hhost => ?_, fun hhost => ?_⟩ <;> rw [step_event hhost]
  · exact ⟨hostAccess_of_admitted hrst, hostAccess_refused hrst⟩
  · exact ⟨hostAccess_of_admitted hrst, hostAccess_refused hrst⟩

/-- Settles O15: no register stands at a reserved offset. -/
theorem reservedOffsets : Obligations.ReservedOffsets := by
  unfold Obligations.ReservedOffsets
  intro s w offset _ hreserved _
  have hr := regAt_reserved hreserved
  exact ⟨by simp [hostRead, hr], by simp [hostWrite, hr]⟩

/-! ### Events of the host port answer -/

theorem State.Inv.hostRead_answers (h : s.Inv) (offset : Nat) : ∃ t, hostRead offset s = .next t :=
  let ⟨_, hv⟩ := hostReadHasNoSideEffect.1 s offset h
  ⟨_, hv⟩

theorem hostWrite_answers (offset : Nat) (w : Word) (s : State) : ∃ t, hostWrite offset w s = .next t := by
  unfold hostWrite
  split
  · exact ⟨_, rfl⟩
  · rename_i r _
    cases r
    case cmd => exact writeCmd_answers w s
    all_goals exact ⟨_, rfl⟩

/-! ### A base tick answers -/

/-- The fixed micro-programs hold no reserved word, so a micro-step always answers (30_encoding.md R106, R108). -/
theorem State.Inv.microStepIf_answers (h : s.Inv) (b : Bool) (X : SeqId) : ∃ t, microStepIf b X s = .next t := by
  obtain ⟨hA, hB⟩ := h.romsFixed
  have hdecode : ∃ i, decodeUop (romFetch (s.rom X) (s.seq X).pc) = .ok i := by
    cases X with
    | A => exact ⟨_, by rw [rom_A, hA]; exact decodeUop_romA _⟩
    | B => exact ⟨_, by rw [rom_B, hB]; exact decodeUop_romB _⟩
  obtain ⟨i, hi⟩ := hdecode
  cases b with
  | false => exact ⟨s, rfl⟩
  | true =>
    simp only [microStepIf, microStep, execWord, decodeBytes_singleton, hi, if_true]
    split
    · exact ⟨_, rfl⟩
    · exact exec_answers i _

/-- FEEDER finds an entry, and a table length that is not 0 (20_memory.md R78, 44_transmitter.md R231). -/
theorem State.InvUpToQueue.feed_answers (h : s.InvUpToQueue) : ∃ t, feed s = .next t := by
  obtain ⟨q, -, hinv⟩ := h
  unfold feed
  split
  · rename_i hfeed
    obtain ⟨hc, -⟩ := hfeed
    obtain ⟨hlen, -⟩ := hinv.preparedSizes (by rw [hc]; rfl)
    have hj : s.j < s.params.tableCap := hinv.feederIndex
    have hne : s.tableLen ≠ 0 := Nat.ne_of_gt hlen
    simp [memRead, hj, hne]
  · exact ⟨_, rfl⟩

/-- The dividers and SEQ_B's micro-step of a base tick from START on. -/
theorem State.Inv.afterSeqB (h : s.Inv) (hs : s.ctl.started = true) {b : Bool} {u : State}
    (hu : microStepIf b .B s.tickFront = .next u) : u.Inv ∧ u.ctl.started = true := by
  have hc : s.countdown = s := countdown_of_not_busy fun he => by rw [he] at hs; cases hs
  have hfront : s.tickFront.ctl.started = true := by rw [tickFront_eq, hc]; exact hs
  exact ⟨(h.tickFront hs).microStepIf_B hfront hu, (microStepIf_frame hu).control.ctl_eq ▸ hfront⟩

/-- SEQ_A's micro-step and the settle step of a base tick from START on. -/
theorem State.Inv.afterSettle (h : s.Inv) (hs : s.ctl.started = true) {b : Bool} {v : State}
    (hv : microStepIf b .A s = .next v) : v.settle.InvUpToQueue :=
  (h.microStepIf_A hs hv).settle ((microStepIf_frame hv).control.ctl_eq ▸ hs)

theorem State.Inv.baseTick_answers (h : s.Inv) : ∃ t, baseTick s = .next t := by
  cases hs : s.ctl.started with
  | false => exact ⟨_, h.baseTick_stopped hs⟩
  | true =>
    have hfront := h.tickFront hs
    obtain ⟨u, hu⟩ := hfront.microStepIf_answers (s.countdown.fires .B) .B
    obtain ⟨huInv, hus⟩ := h.afterSeqB hs hu
    obtain ⟨v, hv⟩ := huInv.microStepIf_answers (s.countdown.fires .A) .A
    obtain ⟨t, ht⟩ := (huInv.afterSettle hus hv).feed_answers
    exact ⟨t, by simp only [baseTick, hu, hv, andThen_next, ht]⟩

theorem State.Inv.clockEdge_answers (h : s.Inv) : ∃ t, clockEdge s = .next t := by
  unfold clockEdge
  split
  · exact ⟨_, rfl⟩
  · exact h.baseTick_answers

/-- Settles O58: event by event, an admitted access by the port and a clock edge by its base tick. -/
theorem admittedStepAnswers : Obligations.AdmittedStepAnswers := by
  unfold Obligations.AdmittedStepAnswers
  intro s h hadm
  have htake (rest : List HostEvent) : ({ s with host := rest } : State).Inv :=
    h.setOutside rest s.rst s.readData s.tblIndex s.encIn
  have access {bits offset : Nat} {act : State → Result} {rest : List HostEvent}
      (hok : (!s.rst && admitted bits offset) = true) :
      hostAccess bits offset act { s with host := rest } = act { s with host := rest } := by
    obtain ⟨hrst, ha⟩ := Bool.and_eq_true_iff.1 hok
    exact hostAccess_of_admitted (by simpa using hrst) ha
  cases hhost : s.host with
  | nil => simpa only [step, hhost] using h.clockEdge_answers
  | cons e rest =>
    simp only [State.nextEventAdmitted, hhost] at hadm
    rw [step_event hhost]
    cases e with
    | read bits offset =>
      simp only [hostEvent, access hadm]
      exact (htake rest).hostRead_answers offset
    | write bits offset w =>
      simp only [hostEvent, access hadm]
      exact hostWrite_answers offset w _
    | edge => exact (htake rest).clockEdge_answers
    | rst level => exact ⟨_, rfl⟩

end Sys2Proof.Machine
end

section
/-! PROOF. The order of the stream in TXQ (20_memory.md R81, 44_transmitter.md R232), and O34. -/
namespace Sys2Proof.Machine
variable {s t : State}

/-! ### Queues in table order -/

/-- A queue holds, head first, the words of a table of `n` entries that lie just before entry `j`, in table order and
modulo `n` (`streamOrder_iff`). -/
def InTableOrder (tbl : Table) (n j : Nat) (q : List Word) : Prop :=
  ∀ i, i < q.length → q[i]? = some (tbl.read ((j + (q.length * n - q.length) + i) % n))

theorem streamOrder_iff : s.StreamOrder ↔ (s.ctl = .streaming → InTableOrder s.word s.tableLen s.j s.txq) := Iff.rfl

theorem streamOrder_of_not_streaming (hc : s.ctl ≠ .streaming) : s.StreamOrder := fun he => absurd he hc

theorem inTableOrder_nil (tbl : Table) (n j : Nat) : InTableOrder tbl n j [] := nofun

/-- Words taken off the head leave the rest in order: each of them moves the index by `n`. -/
theorem InTableOrder.suffix {tbl : Table} {n j : Nat} {p q : List Word} (hn : 0 < n) (h : InTableOrder tbl n j p)
    (hq : q <:+ p) : InTableOrder tbl n j q := by
  obtain ⟨taken, rfl⟩ := hq
  obtain ⟨m, rfl⟩ := Nat.exists_eq_add_one.2 hn
  intro i hi
  have hindex : j + ((taken ++ q).length * (m + 1) - (taken ++ q).length) + (taken.length + i) =
      j + (q.length * (m + 1) - q.length) + i + taken.length * (m + 1) := by
    simp only [List.length_append, Nat.mul_succ, Nat.add_sub_cancel, Nat.add_mul]
    omega
  have hword := h (taken.length + i) (by rw [List.length_append]; omega)
  rwa [hindex, Nat.add_mul_mod_self_right, List.getElem?_append_right (Nat.le_add_right _ _),
    Nat.add_sub_cancel_left] at hword

/-- The word of entry `j` at the tail, with `j` going on by 1 modulo `n`, keeps the order (44_transmitter.md R231). -/
theorem InTableOrder.push {tbl : Table} {n j : Nat} {q : List Word} (hj : j < n) (h : InTableOrder tbl n j q) :
    InTableOrder tbl n ((j + 1) % n) (q ++ [tbl.read j]) := by
  obtain ⟨m, rfl⟩ := Nat.exists_eq_add_one.2 (Nat.zero_lt_of_lt hj)
  intro i hi
  have hindex : j + 1 + ((q ++ [tbl.read j]).length * (m + 1) - (q ++ [tbl.read j]).length) + i =
      j + (q.length * (m + 1) - q.length) + i + (m + 1) := by
    simp only [List.length_append, List.length_singleton, Nat.mul_succ, Nat.add_sub_cancel, Nat.add_mul]
    omega
  rw [Nat.add_assoc, Nat.mod_add_mod, ← Nat.add_assoc, hindex, Nat.add_mod_right]
  rw [List.length_append, List.length_singleton] at hi
  rcases Nat.lt_succ_iff_lt_or_eq.1 hi with hlt | rfl
  · rw [List.getElem?_append_left hlt, h i hlt]
  · have htail : j + (q.length * (m + 1) - q.length) + q.length = j + q.length * (m + 1) := by
      rw [Nat.add_assoc, Nat.sub_add_cancel (Nat.le_mul_of_pos_right _ (Nat.succ_pos _))]
    rw [htail, Nat.add_mul_mod_self_right, Nat.mod_eq_of_lt hj, List.getElem?_concat_length]

/-! ### The parts of a base tick -/

/-- What writes only the sequencers' side and takes words off the head of TXQ keeps the order. -/
theorem State.StreamOrder.of_sameControl (hs : s.StreamOrder) (hlen : 0 < s.tableLen) (hctl : s.SameControl t)
    (hq : t.txq <:+ s.txq) : t.StreamOrder := by
  rw [hctl.eq_update]
  exact fun hc => (streamOrder_iff.1 hs hc).suffix hlen hq

/-- STREAMING begins with an empty queue. -/
theorem State.InvUpToQueue.settle_streamOrder (h : s.InvUpToQueue) (hs : s.StreamOrder) : s.settle.StreamOrder := by
  rcases settle_cases s with ⟨-, he⟩ | ⟨hc, -, he⟩ | ⟨-, -, he⟩ <;> rw [he]
  · exact hs
  · obtain ⟨q, hlen, hinv⟩ := h
    have hq : q = [] := hinv.queueBeforeStreaming (by rw [hc]; nofun)
    have htxq : s.txq = [] := by simpa [hq] using hlen
    refine streamOrder_iff.2 fun _ => ?_
    simp only [htxq]
    exact inTableOrder_nil _ _ _
  · exact hs

/-- FEEDER pushes the word of entry j, which stands in the table. -/
theorem State.InvUpToQueue.feed_streamOrder (h : s.InvUpToQueue) (hs : s.StreamOrder) (ht : feed s = .next t) :
    t.StreamOrder := by
  obtain ⟨q, -, hinv⟩ := h
  rcases feed_cases ht with ⟨-, rfl⟩ | ⟨hc, -, -, -, rfl⟩
  · exact hs
  · have hj : s.j < s.tableLen := hinv.feederBelowLen (by rw [hc]; rfl)
    exact fun _ => (streamOrder_iff.1 hs hc).push hj

theorem State.Inv.baseTick_streamOrder (h : s.Inv) (hs : s.StreamOrder) (ht : baseTick s = .next t) :
    t.StreamOrder := by
  cases hrun : s.ctl.started with
  | false =>
    rw [h.baseTick_stopped hrun] at ht
    cases ht
    refine streamOrder_of_not_streaming fun he => ?_
    have hcs := h.countdown_stopped hrun
    rw [he] at hcs
    cases hcs
  | true =>
    obtain ⟨u, v, hu, hv, hf⟩ := baseTick_cases ht
    have hc : s.countdown = s := countdown_of_not_busy fun he => by rw [he] at hrun; cases hrun
    have hlen : 1 ≤ s.tableLen := (h.preparedSizes (Ctl.prepared_of_started hrun)).1
    obtain ⟨huInv, hus⟩ := h.afterSeqB hrun hu
    have hqA := (microStepIf_queue hv huInv.queueWhileStreaming).2
    have hqB := (microStepIf_B_queue (h.tickFront hrun).romsFixed.2 hu).2
    have hqFront : s.tickFront.txq = s.txq := by rw [tickFront_eq, hc]
    have hctl : s.SameControl v :=
      hc ▸ ((sameControl_tickFront s).trans (microStepIf_frame hu).control).trans (microStepIf_frame hv).control
    have hvOrder : v.StreamOrder := hs.of_sameControl hlen hctl (by rwa [hqB, hqFront] at hqA)
    exact (huInv.afterSettle hus hv).feed_streamOrder
      ((huInv.microStepIf_A hus hv).settle_streamOrder hvOrder) hf

/-! ### The step -/

theorem State.Inv.clockEdge_streamOrder (h : s.Inv) (hs : s.StreamOrder) (ht : clockEdge s = .next t) :
    t.StreamOrder := by
  rcases clockEdge_cases ht with ⟨-, rfl⟩ | ⟨-, ht⟩
  · exact streamOrder_of_not_streaming nofun
  · exact h.baseTick_streamOrder hs ht

/-- A write leaves the queue and the table behind it alone while STREAMING, and does not enter STREAMING. -/
theorem State.StreamOrder.hostWrite_next (hs : s.StreamOrder) {offset : Nat} {w : Word}
    (ht : hostWrite offset w s = .next t) : t.StreamOrder := by
  rcases hostWrite_effect ht with ⟨i, e, rfl⟩ | ⟨-, hw⟩ | ⟨-, _, _, _, _, _, _, rfl⟩ | ⟨-, rfl⟩
  · exact hs
  · rcases writeCmd_cases hw with ⟨-, rfl⟩ | ⟨-, rfl⟩ | ⟨-, rfl⟩ | ⟨-, rfl⟩ | ⟨-, rfl⟩ | ⟨-, rfl⟩
    · exact hs
    · exact streamOrder_of_not_streaming nofun
    · exact streamOrder_of_not_streaming nofun
    · exact streamOrder_of_not_streaming nofun
    · exact streamOrder_of_not_streaming nofun
    · exact hs
  · exact streamOrder_of_not_streaming nofun
  · exact hs

/-- Settles O34: REFILL takes the head, FEEDER pushes entry j and moves on, and nothing else touches TXQ, j or the table while
STREAMING. -/
theorem stepKeepsStreamOrder : Obligations.StepKeepsStreamOrder := by
  unfold Obligations.StepKeepsStreamOrder
  intro s t h hs ht
  rcases step_cases ht with ⟨-, hc⟩ | ⟨e, rest, -, he, -, hx⟩
  · exact (h.setOutside s.host.tail s.rst s.readData s.tblIndex s.encIn).clockEdge_streamOrder hs hc
  · rcases hostEvent_effect he hx with ⟨_, _, rfl⟩ | ⟨-, offset, w, -, -, hw⟩
    · exact hs
    · exact State.StreamOrder.hostWrite_next (s := { s with host := rest }) hs hw

end Sys2Proof.Machine
end

section
/-! PROOF. The decoder and the encoder of both formats (30_encoding.md R100 to R108): the fields of a word, which words
decode and to what, and the agreement of the two (O1 to O4, O7). -/
namespace Sys2Proof.Machine

/-! ### The fields of a micro-instruction word (R102) -/
section fields
variable (side : Bool) (op delay : BitVec 2) (u : Byte)

@[simp] theorem uopSide_uopWord : uopSide (uopWord side op delay) = side := by
  unfold uopSide uopWord
  rw [BitVec.getLsbD_append, BitVec.getLsbD_append, BitVec.getLsbD_append, BitVec.getLsbD_ofBool]
  rfl

@[simp] theorem uopOp_uopWord : uopOp (uopWord side op delay) = op := by
  unfold uopOp uopWord
  rw [BitVec.extractLsb'_append_eq_of_le (by decide), BitVec.extractLsb'_append_eq_of_le (by decide)]
  exact BitVec.extractLsb'_append_eq_right

@[simp] theorem uopDelay_uopWord : uopDelay (uopWord side op delay) = delay := by
  unfold uopDelay uopWord
  rw [BitVec.extractLsb'_append_eq_of_le (by decide)]
  exact BitVec.extractLsb'_append_eq_right

@[simp] theorem uopRsv_uopWord : uopRsv (uopWord side op delay) = 0 := BitVec.extractLsb'_append_eq_right

theorem append_fields : BitVec.ofBool (uopSide u) ++ uopOp u ++ uopDelay u ++ uopRsv u = u := by
  refine BitVec.eq_of_getLsbD_eq fun i hi => ?_
  simp only [uopSide, uopOp, uopDelay, uopRsv, BitVec.getLsbD_append, BitVec.getLsbD_extractLsb',
    BitVec.getLsbD_ofBool]
  have hbit : i = 0 ∨ i = 1 ∨ i = 2 ∨ i = 3 ∨ i = 4 ∨ i = 5 ∨ i = 6 ∨ i = 7 := by omega
  rcases hbit with rfl | rfl | rfl | rfl | rfl | rfl | rfl | rfl <;> rfl

/-- The mask of every micro-instruction (R104) keeps OP. -/
theorem uopOp_masked : uopOp (u &&& 0x67) = uopOp u := by
  unfold uopOp
  rw [BitVec.extractLsb'_and]
  exact BitVec.and_allOnes

/-- The mask of every micro-instruction (R104) keeps RSV. -/
theorem uopRsv_masked : uopRsv (u &&& 0x67) = uopRsv u := by
  unfold uopRsv
  rw [BitVec.extractLsb'_and]
  exact BitVec.and_allOnes

end fields

variable {u : Byte} {w : Word} {i : Instr}

theorem uopWord_fields (hrsv : uopRsv u = 0) : uopWord (uopSide u) (uopOp u) (uopDelay u) = u := by
  rw [uopWord, ← hrsv]
  exact append_fields u

/-- A word that matches a row of R104 under its mask is the encoder's word of its own SIDE and DELAY. -/
theorem uopWord_of_masked {op : BitVec 2} (h : u &&& 0x67 = uopWord false op 0) :
    uopWord (uopSide u) op (uopDelay u) = u := by
  have hop : uopOp u = op := by rw [← uopOp_masked, h, uopOp_uopWord]
  have hrsv : uopRsv u = 0 := by rw [← uopRsv_masked, h, uopRsv_uopWord]
  rw [← hop, uopWord_fields hrsv]

/-! ### Which bytes decode, and to what -/

theorem decodeBytes_encode (i : Instr) : decodeBytes (encode i) = .ok i := by
  cases i
  case nop => rfl
  case prepare => rfl
  case start => rfl
  case setclk side delay => simp [encode, decodeUop]
  case refill side delay => simp [encode, decodeUop]
  case shift1 side delay => simp [encode, decodeUop]

/-- A byte decodes to exactly the instruction it is the encoding of. -/
theorem decodeUop_ok_iff : decodeUop u = .ok i ↔ encode i = [u] := by
  constructor
  · intro h
    unfold decodeUop at h
    split at h
    case isTrue => cases h
    case isFalse hrsv =>
      have hfields := uopWord_fields (Decidable.not_not.1 hrsv)
      have hop {op : BitVec 2} (h : (uopOp u).toNat = op.toNat) : [uopWord (uopSide u) op (uopDelay u)] = [u] := by
        rw [← BitVec.eq_of_toNat_eq h, hfields]
      split at h <;> cases h
      case h_1 h0 => exact hop (op := 0b00) h0
      case h_2 h1 => exact hop (op := 0b01) h1
      case h_3 h2 => exact hop (op := 0b10) h2
  · intro h
    rw [← decodeBytes_singleton, ← h, decodeBytes_encode]

theorem decodeUop_reservedRsv (hrsv : uopRsv u ≠ 0) : decodeUop u = .error .reservedRsv := if_pos hrsv

theorem decodeUop_reservedOp (hrsv : uopRsv u = 0) (hop : uopOp u = 3) : decodeUop u = .error .reservedOp := by
  simp [decodeUop, hrsv, hop]

/-- A byte selects an instruction exactly when RSV = 000 and OP ≠ 11 (R104). -/
theorem decodeUop_selects_iff : (∃ i, decodeUop u = .ok i) ↔ uopRsv u = 0 ∧ uopOp u ≠ 3 := by
  constructor
  · rintro ⟨i, h⟩
    by_cases hrsv : uopRsv u = 0
    · refine ⟨hrsv, fun hop => ?_⟩
      rw [decodeUop_reservedOp hrsv hop] at h
      cases h
    · rw [decodeUop_reservedRsv hrsv] at h
      cases h
  · rintro ⟨hrsv, hop⟩
    have hfields := uopWord_fields hrsv
    have hops : ∀ op : BitVec 2, op ≠ 3 → op = 0b00 ∨ op = 0b01 ∨ op = 0b10 := by decide
    rcases hops _ hop with h | h | h <;> rw [h] at hfields
    · exact ⟨.setclk _ _, decodeUop_ok_iff.2 (congrArg List.singleton hfields)⟩
    · exact ⟨.refill _ _, decodeUop_ok_iff.2 (congrArg List.singleton hfields)⟩
    · exact ⟨.shift1 _ _, decodeUop_ok_iff.2 (congrArg List.singleton hfields)⟩

theorem decodeUop_setclk (h : u &&& 0x67 = 0x00) : decodeUop u = .ok (.setclk (uopSide u) (uopDelay u)) :=
  decodeUop_ok_iff.2 (congrArg List.singleton (uopWord_of_masked (op := 0b00) h))

theorem decodeUop_refill (h : u &&& 0x67 = 0x20) : decodeUop u = .ok (.refill (uopSide u) (uopDelay u)) :=
  decodeUop_ok_iff.2 (congrArg List.singleton (uopWord_of_masked (op := 0b01) h))

theorem decodeUop_shift1 (h : u &&& 0x67 = 0x40) : decodeUop u = .ok (.shift1 (uopSide u) (uopDelay u)) :=
  decodeUop_ok_iff.2 (congrArg List.singleton (uopWord_of_masked (op := 0b10) h))

/-! ### Which words decode, and to what (R101) -/

@[simp] theorem hcmdOpcode_hcmdWord (opcode : BitVec 4) : hcmdOpcode (hcmdWord opcode) = opcode := by
  refine BitVec.eq_of_toNat_eq ?_
  simp only [hcmdOpcode, hcmdWord, BitVec.extractLsb'_toNat, BitVec.toNat_setWidth]
  omega

theorem decodeHcmd_nop (h : hcmdOpcode w = 0x0) : decodeHcmd w = .ok .nop := by
  simp [decodeHcmd, h]

theorem decodeHcmd_prepare (h : hcmdOpcode w = 0x1) : decodeHcmd w = .ok .prepare := by
  simp [decodeHcmd, h]

theorem decodeHcmd_start (h : hcmdOpcode w = 0x2) : decodeHcmd w = .ok .start := by
  simp [decodeHcmd, h]

theorem decodeHcmd_reserved (h : 3 ≤ (hcmdOpcode w).toNat) :
    decodeHcmd w = .error (.reservedOpcode (hcmdOpcode w)) := by
  unfold decodeHcmd
  split
  any_goals omega
  rfl

/-- A word that decodes is, up to its ignored bits, the encoder's word of its instruction. -/
theorem encode_of_decodeHcmd (h : decodeHcmd w = .ok i) : encode i = wordBytes (hcmdWord (hcmdOpcode w)) := by
  have hop {opcode : BitVec 4} (h : (hcmdOpcode w).toNat = opcode.toNat) :
      wordBytes (hcmdWord opcode) = wordBytes (hcmdWord (hcmdOpcode w)) := by
    rw [BitVec.eq_of_toNat_eq h]
  unfold decodeHcmd at h
  split at h <;> cases h
  case h_1 h0 => exact hop (opcode := 0x0) h0
  case h_2 h1 => exact hop (opcode := 0x1) h1
  case h_3 h2 => exact hop (opcode := 0x2) h2

/-! ### The agreement -/

/-- Settles O1: a byte decodes exactly to what it encodes, and a word's opcode field is that of its instruction. -/
theorem decodeEncodeAgree : Obligations.DecodeEncodeAgree := by
  unfold Obligations.DecodeEncodeAgree
  refine ⟨decodeBytes_encode, fun u i h => decodeUop_ok_iff.1 h, fun w i h => ?_⟩
  rw [decodeBytes_wordBytes] at h
  exact ⟨hcmdWord (hcmdOpcode w), encode_of_decodeHcmd h, hcmdOpcode_hcmdWord _⟩

/-- Settles O2: the decoder reads the opcode field alone, and each of its values has its equation. -/
theorem hostCommandDecodesByOpcode : Obligations.HostCommandDecodesByOpcode := by
  unfold Obligations.HostCommandDecodesByOpcode
  intro w
  rw [decodeBytes_wordBytes]
  exact ⟨decodeHcmd_nop, decodeHcmd_prepare, decodeHcmd_start, decodeHcmd_reserved⟩

/-- Settles O3: the mask leaves exactly OP and RSV, which select the instruction. -/
theorem uopWordSelectsInstruction : Obligations.UopWordSelectsInstruction := by
  unfold Obligations.UopWordSelectsInstruction
  exact fun u => ⟨decodeUop_setclk, decodeUop_refill, decodeUop_shift1, decodeUop_selects_iff⟩

/-- Settles O4: the words are literals, and the decoder evaluates on each. -/
theorem specWordsDecode : Obligations.SpecWordsDecode := by
  unfold Obligations.SpecWordsDecode
  exact ⟨rfl, rfl, rfl, rfl, rfl, rfl, rfl, rfl, rfl, rfl, rfl⟩

/-! ### Reserved words (R108) -/

theorem execWord_reserved (h : uopOp u = 3 ∨ uopRsv u ≠ 0) (s : State) : execWord u s = .refused .reservedUop := by
  unfold execWord
  split
  next i hi =>
    obtain ⟨hrsv, hop⟩ := decodeUop_selects_iff.1 ⟨i, hi⟩
    exact (h.elim hop fun hne => hne hrsv).elim
  next => rfl

/-- Settles O7: past its delay a sequencer executes the word at its pc, and a reserved one decodes to nothing. -/
theorem reservedUopIsRefused : Obligations.ReservedUopIsRefused := by
  unfold Obligations.ReservedUopIsRefused
  refine ⟨fun s X hdly hword => ?_, fun pc => ⟨⟨_, decodeUop_romA pc⟩, ⟨_, decodeUop_romB pc⟩⟩⟩
  rw [microStep, if_neg (Decidable.not_not.2 hdly)]
  exact execWord_reserved hword _

end Sys2Proof.Machine
end

section
/-! PROOF. REFILL and SHIFT1 (43_sequencers.md R195, R196), and the slot that 32 SHIFT1s make of a sample (42_encoder.md
R178): O24, O26, O27. -/
namespace Sys2Proof.Machine
variable {s : State}

/-! ### The words of ROM_B -/

/-- What SEQ_B fetches from its fixed store is SETCLK and nothing else (R106). -/
theorem eq_setclk_of_decodeUop_romB {pc : BitVec 1} {i : Instr} (h : decodeUop (romFetch romBInit pc) = .ok i) :
    i = .setclk (pc == 0) 0 :=
  Except.ok.inj (h.symm.trans (decodeUop_romB pc))

/-! ### REFILL -/

theorem reload_pop {w : Word} {rest : List Word} (hq : s.txq = w :: rest) :
    s.reload = { s with osr := w, txq := rest, osrCnt := 0 } := by
  simp [State.reload, hq]

theorem reload_underrun (hq : s.txq = []) (hc : s.ctl = .streaming) :
    s.reload = { s with osr := 0, osrCnt := 0, unf := true } := by
  simp [State.reload, hq, hc, State.setUnf]

theorem reload_zeros (hq : s.txq = []) (hc : s.ctl ≠ .streaming) : s.reload = { s with osr := 0, osrCnt := 0 } := by
  simp [State.reload, hq, hc]

theorem exec_refill_full (h : s.osrCnt ≠ 32) (side : Bool) (delay : BitVec 2) :
    exec (.refill side delay) s = .next ((s.driveBck side).retire delay) := by
  simp [exec, execRefill, State.osrEmpty, h]

theorem exec_refill_empty (h : s.osrCnt = 32) (side : Bool) (delay : BitVec 2) :
    exec (.refill side delay) s = .next ((s.driveBck side).reload.retire delay) := by
  simp [exec, execRefill, State.osrEmpty, h]

/-- Settles O26: a buffer that is not empty stays, and an empty one is reloaded in one of three ways. -/
theorem refillEffect : Obligations.RefillEffect := by
  unfold Obligations.RefillEffect
  refine ⟨fun u => decodeUop_refill, fun pc h => ?_, fun s side delay =>
    ⟨fun h => exec_refill_full h side delay, fun w rest h hq => ?_, fun h hq hc => ?_, fun h hq hc => ?_⟩⟩
  · cases eq_setclk_of_decodeUop_romB (decodeUop_refill h)
  · rw [exec_refill_empty h, reload_pop (s := s.driveBck side) hq]
    rfl
  · rw [exec_refill_empty h, reload_underrun (s := s.driveBck side) hq hc]
    rfl
  · rw [exec_refill_empty h, reload_zeros (s := s.driveBck side) hq hc]
    rfl

/-! ### SHIFT1 -/

/-- A buffer that holds only bits not yet shifted out holds 0 when it is empty (R196). -/
theorem State.BufferZeroFilled.osr_eq_zero (h : s.BufferZeroFilled) (hempty : s.osrCnt = 32) : s.osr = 0 := by
  rw [State.BufferZeroFilled, hempty] at h
  exact BitVec.eq_of_toNat_eq (Nat.lt_one_iff.1 h)

theorem countUp_full : countUp 32 = 32 := rfl

/-- Settles O27: the state before `retire` is `shiftOut` after BCK; an empty buffer is 0, and 0 shifts out zeros. -/
theorem shift1Effect : Obligations.Shift1Effect := by
  unfold Obligations.Shift1Effect
  refine ⟨fun u => decodeUop_shift1, fun pc h => ?_, fun s side delay =>
    ⟨(s.driveBck side).shiftOut, rfl, rfl, ?_, rfl, fun hzero hempty => ?_⟩⟩
  · cases eq_setclk_of_decodeUop_romB (decodeUop_shift1 h)
  · rw [shiftOut_osr, driveBck_osr, BitVec.toNat_ushiftRight, Nat.shiftRight_eq_div_pow, Nat.pow_one]
  · have hosr := hzero.osr_eq_zero hempty
    simp [State.osrBit, hosr, hempty, countUp_full]

/-! ### A slot of 32 SHIFT1s -/

theorem shiftBits_osr (n : Nat) (s : State) : (shiftBits n s).osr = s.osr >>> n := by
  induction n with
  | zero => rfl
  | succ n ih => rw [shiftBits, shiftOut_osr, ih, ← BitVec.shiftRight_add]

theorem shiftBits_osrCnt (n : Nat) (s : State) : (shiftBits n s).osrCnt.val = min (s.osrCnt.val + n) 32 := by
  induction n with
  | zero => exact (Nat.min_eq_left (Nat.le_of_lt_succ s.osrCnt.isLt)).symm
  | succ n ih =>
    simp only [shiftBits, shiftOut_osrCnt, countUp, ih]
    omega

/-- The last of `n + 1` SHIFT1s drives bit `n` of what OSR held before the first. -/
theorem shiftBits_succ_data (n : Nat) (s : State) : (shiftBits (n + 1) s).data = s.osr.getLsbD n := by
  rw [shiftBits, shiftOut_data, State.osrBit, shiftBits_osr, BitVec.getLsbD_ushiftRight, Nat.add_zero]

theorem getLsbD_rev32 (u : Word) {k : Nat} (hk : k < 32) : (rev32 u).getLsbD k = u.getLsbD (31 - k) := by
  rw [rev32, BitVec.getLsbD_reverse, BitVec.getMsbD, decide_eq_true hk, Bool.true_and]

/-- Settles O24: SHIFT1 sends OSR least significant bit first, and the encoder has reversed the sample. -/
theorem slotCarriesSampleMsbFirst : Obligations.SlotCarriesSampleMsbFirst := by
  unfold Obligations.SlotCarriesSampleMsbFirst
  intro s sample is24Bit k hosr hcnt hk
  constructor
  · rw [shiftBits_succ_data, hosr, encodeSample_eq, getLsbD_rev32 sample hk]
  · rw [shiftBits_osrCnt, hcnt]
    simp only [Fin.val_zero]
    omega

end Sys2Proof.Machine
end

section
/-! PROOF. DIVCALC (40_divisor.md R130 to R136): where its quotient is out of range, what an accepted quotient writes and how
close the divisor is to it, and the base clocks that give exact divisors (70_reset_and_hazards.md R295): O47, O48, O49. -/
namespace Sys2Proof.Machine
open F32

namespace F32

/-- A magnitude stays representable when a power of two is divided out. -/
theorem representable_of_mul_two_pow {m k : Nat} (h : representable (m * 2 ^ k)) : representable m := by
  obtain ⟨⟨s, hdvd, hlt⟩, hover⟩ := representable_iff.1 h
  have hle : m ≤ m * 2 ^ k := Nat.le_mul_of_pos_right m (Nat.two_pow_pos k)
  rcases Nat.le_total k s with hk | hk
  · obtain ⟨j, rfl⟩ := Nat.exists_eq_add_of_le' hk
    rw [Nat.pow_add] at hdvd
    rw [show j + k + 24 = j + 24 + k by omega, Nat.pow_add] at hlt
    exact representable_of_dvd (Nat.dvd_of_mul_dvd_mul_right (Nat.two_pow_pos k) hdvd) (Nat.lt_of_mul_lt_mul_right hlt)
      (by omega)
  · rw [show s + 24 = 24 + s by omega, Nat.pow_add] at hlt
    have hm : m < 2 ^ 24 :=
      Nat.lt_of_mul_lt_mul_right (Nat.lt_of_lt_of_le hlt (Nat.mul_le_mul_left _ (Nat.pow_le_pow_right (by omega) hk)))
    exact representable_of_dvd (s := 0) (by simp) (by simpa using hm) (by omega)

/-- Fewer than 24 bits at any power of two, below the overflow. -/
theorem representable_mul_two_pow {n k : Nat} (hn : n < 2 ^ 24) (hk : k ≤ 253) : representable (n * 2 ^ k) := by
  have hlt : n * 2 ^ k < 2 ^ (k + 24) := by
    rw [Nat.pow_add, Nat.mul_comm]
    exact Nat.mul_lt_mul_of_pos_left hn (Nat.two_pow_pos k)
  exact representable_of_dvd (Nat.dvd_mul_left _ _) hlt
    (Nat.lt_of_lt_of_le hlt (Nat.le_trans (Nat.pow_le_pow_right (by omega) (by omega)) (Nat.le_of_eq overflowMag_eq.symm)))

/-- A natural number of at most 24 significant bits converts exactly. -/
theorem ofNat_mul_two_pow {n k : Nat} (hn : n < 2 ^ 24) (hk : k ≤ 104) :
    ofNat (n * 2 ^ k) = .fin false (n * 2 ^ k * unit) := by
  have hrep : representable (n * 2 ^ k * unit) := by
    rw [unit_eq, Nat.mul_assoc, ← Nat.pow_add]
    exact representable_mul_two_pow hn (by omega)
  have hneg : decide (((n * 2 ^ k : Nat) : Int) < 0) = false :=
    decide_eq_false (Int.not_lt.2 (Int.natCast_nonneg _))
  rw [ofNat, ofInt, hneg, Int.natAbs_natCast]
  simpa using round_exact (den := 1) false (by omega) hrep

/-- A division that comes out exactly is not rounded. -/
theorem div_exact {a b k : Nat} (hb : 0 < b) (hab : a * unit = k * b) (hk : representable k) :
    div (.fin false a) (.fin false b) = .fin false k := by
  rw [div, if_neg (by omega), hab, Bool.xor_self]
  exact round_exact false hb hk

/-- A value at or above a bound is a number, and is not below a smaller bound. -/
theorem not_nan_not_lt_of_ge {d : F32} {a b : Nat} (hab : a ≤ b) (h : d.ge (.fin false b) = true) :
    d.isNan = false ∧ d.lt (.fin false a) = false := by
  cases d with
  | nan => cases h
  | inf n =>
    simp only [ge, key, signed_false, decide_eq_true_eq] at h
    simp only [isNan, lt, key, signed_false, decide_eq_false_iff_not, true_and]
    omega
  | fin n m =>
    simp only [ge, key, signed_false, decide_eq_true_eq] at h
    simp only [isNan, lt, key, signed_false, decide_eq_false_iff_not, true_and]
    omega

end F32

/-! ### The cases of the quotient -/

theorem splitDivisor_low {d : F32} (h : d.isNan = true ∨ d.lt (ofNat 1) = true) : splitDivisor d = .low d.bits := by
  rw [splitDivisor, if_pos (by simpa using h)]

theorem splitDivisor_high {d : F32} (h : d.ge (ofNat 65536) = true) : splitDivisor d = .high d.bits := by
  have hge := h
  rw [ofNat_exact (by omega)] at hge
  obtain ⟨hnan, hlt⟩ := not_nan_not_lt_of_ge (Nat.mul_le_mul_right unit (show 1 ≤ 65536 by omega)) hge
  rw [splitDivisor, ofNat_exact (n := 1) (by omega), hnan, hlt, if_neg (by simp), if_pos h]

/-- The registers' value of a quotient is its whole number of 1/256: INT and FRAC together lose less than one of them. -/
theorem split_eq_div (m : Nat) : 256 * (m / unit) + m % unit * 256 / unit = m / 2 ^ 141 := by
  have hunit : unit = 2 ^ 141 * 256 := by rw [unit_eq, show 256 = 2 ^ 8 by rfl, ← Nat.pow_add]
  rw [hunit, Nat.mul_div_mul_right _ _ (by omega), Nat.mod_mul_right_div_self, ← Nat.div_div_eq_div_mul]
  exact Nat.div_add_mod _ _

/-- A finite quotient d with 1 ≤ d < 65536 is accepted. -/
theorem exists_splitDivisor_ok {m : Nat} (hrep : representable m) (hlow : unit ≤ m) (hhigh : m < 65536 * unit) :
    ∃ int frac, splitDivisor (.fin false m) = .ok int frac ∧ 256 * int + frac = m / 2 ^ 141 := by
  refine ⟨m / unit, m % unit * 256 / unit, ?_, split_eq_div m⟩
  have h1 : (fin false m).lt (ofNat 1) = false := by
    rw [ofNat_exact (by omega)]
    simp only [lt, key, signed_false, decide_eq_false_iff_not]
    omega
  have h65536 : (fin false m).ge (ofNat 65536) = false := by
    rw [ofNat_exact (by omega)]
    simp only [ge, key, signed_false, decide_eq_false_iff_not]
    omega
  rw [splitDivisor, h1, h65536, divFrac_eq hrep hhigh, divInt, trunc_toNat]
  rfl

/-! ### The divisor registers -/

theorem computeDivA_ok {base : F32} {fbck int frac : Nat}
    (h : computeDivisor base (ofNat 4) (ofNat fbck) = .ok int frac) (s : State) :
    computeDivA base fbck s = .ok { s with divA := d256Of int frac } := by
  rw [computeDivA, h]

theorem computeDivB_ok {base : F32} {fs int frac : Nat}
    (h : computeDivisor base (ofNat 2) (ofNat fs) = .ok int frac) (s : State) :
    computeDivB base fs s = .ok { s with divB := d256Of int frac } := by
  rw [computeDivB, h]

/-- An accepted divisor is written whole: 256 · INT + FRAC fits the 24 bits. -/
theorem d256Of_toNat {base cycles target : F32} {int frac : Nat} (h : computeDivisor base cycles target = .ok int frac) :
    (d256Of int frac).toNat = 256 * int + frac := by
  obtain ⟨-, hint, hfrac⟩ := computeDivisor_bounds h
  rw [d256Of, BitVec.toNat_ofNat, Nat.mod_eq_of_lt (by omega)]

/-- Settles O47: 256 · INT + FRAC is what the accepting case writes, and INT ≤ 65535 and FRAC ≤ 255 fit it. -/
theorem divisorRegisters : Obligations.DivisorRegisters := by
  unfold Obligations.DivisorRegisters
  exact fun s base target int frac =>
    ⟨fun h => ⟨computeDivA_ok h s, d256Of_toNat h⟩, fun h => ⟨computeDivB_ok h s, d256Of_toNat h⟩⟩

/-- Settles O48: the divisor is ⌊256 · d⌋, because subtracting INT and scaling by 256 do not round. -/
theorem divisorAccuracy : Obligations.DivisorAccuracy := by
  unfold Obligations.DivisorAccuracy
  intro base cycles target int frac h
  obtain ⟨hlow, hhigh, hfrac⟩ := computeDivisor_bounds h
  obtain ⟨m, hm, -, -, rfl, rfl⟩ := splitDivisor_ok (div_wellFormed _ _) h
  refine ⟨m, hm, hlow, hhigh, hfrac, ?_, ?_⟩
  · rw [split_eq_div]
    exact Nat.div_mul_le_self _ _
  · rw [split_eq_div]
    exact (Nat.div_lt_iff_lt_mul (Nat.two_pow_pos 141)).1 (Nat.lt_succ_self _)

/-! ### The lock condition -/

/-- A row of the rate table: fbck = 64 · fs, and fs is in the range of exact conversion (R132). -/
theorem rateTable_row {sel : BitVec 3} {fs fbck : Nat} (h : rateTable sel = some (fs, fbck)) :
    fbck = fs * 2 ^ 6 ∧ 0 < fs ∧ fs < 2 ^ 24 := by
  unfold rateTable at h
  split at h <;> cases h <;> decide

/-- A base clock of K · fs over 2^i cycles and the target 2^j · fs: both divisions are exact, and d is K at a power of
two. -/
theorem quotient_locked {K fs i j e : Nat} (hK : K < 2 ^ 24) (hfs : 0 < fs) (hfs24 : fs < 2 ^ 24) (hi : i < 24)
    (hj : j ≤ 104) (he : e + i + j = 149) (hbase : representable (K * fs * unit)) :
    quotient (.fin false (K * fs * unit)) (ofNat (2 ^ i)) (ofNat (fs * 2 ^ j)) = .fin false (K * 2 ^ e) := by
  have hunit : unit = 2 ^ e * 2 ^ i * 2 ^ j := by rw [unit_eq, ← he, Nat.pow_add, Nat.pow_add]
  have hcycles : ofNat (2 ^ i) = .fin false (2 ^ i * unit) := ofNat_exact (Nat.pow_lt_pow_right (by omega) hi)
  have hfirst : div (.fin false (K * fs * unit)) (ofNat (2 ^ i)) = .fin false (K * fs * (2 ^ e * 2 ^ j)) := by
    have hsplit : K * fs * unit = K * fs * (2 ^ e * 2 ^ j) * 2 ^ i := by rw [hunit]; ac_rfl
    rw [hcycles]
    refine div_exact (Nat.mul_pos (Nat.two_pow_pos i) unit_pos) (by rw [hsplit, Nat.mul_assoc]) ?_
    rw [hsplit] at hbase
    exact representable_of_mul_two_pow hbase
  rw [quotient, hfirst, ofNat_mul_two_pow hfs24 hj]
  exact div_exact (Nat.mul_pos (Nat.mul_pos hfs (Nat.two_pow_pos j)) unit_pos) (by ac_rfl)
    (representable_mul_two_pow hK (by omega))

/-- Settles O49: d_A is K · 2^-8 and d_B is K · 2^-1 exactly, and both are in range. -/
theorem lockedDivisors : Obligations.LockedDivisors := by
  unfold Obligations.LockedDivisors
  intro sel fs fbck K base hrate hlow hhigh hbase
  obtain ⟨rfl, hfs, hfs24⟩ := rateTable_row hrate
  have hrep : representable (K * fs * unit) := by simpa [hbase, WellFormed] using flt_wellFormed base
  have hA : quotient (.fin false (K * fs * unit)) (ofNat 4) (ofNat (fs * 2 ^ 6)) = .fin false (K * 2 ^ 141) :=
    quotient_locked (i := 2) (by omega) hfs hfs24 (by omega) (by omega) rfl hrep
  have hB : quotient (.fin false (K * fs * unit)) (ofNat 2) (ofNat fs) = .fin false (K * 2 ^ 148) := by
    have h := quotient_locked (i := 1) (j := 0) (e := 148) (by omega) hfs hfs24 (by omega) (by omega) rfl hrep
    rwa [Nat.pow_one, Nat.pow_zero, Nat.mul_one] at h
  obtain ⟨intA, fracA, hokA, heqA⟩ := exists_splitDivisor_ok (m := K * 2 ^ 141)
    (representable_mul_two_pow (by omega) (by omega)) (by rw [unit_eq]; omega) (by rw [unit_eq]; omega)
  obtain ⟨intB, fracB, hokB, heqB⟩ := exists_splitDivisor_ok (m := K * 2 ^ 148)
    (representable_mul_two_pow (by omega) (by omega)) (by rw [unit_eq]; omega) (by rw [unit_eq]; omega)
  exact ⟨intA, fracA, intB, fracB, by rw [hbase, computeDivisor, hA, hokA], by omega,
    by rw [hbase, computeDivisor, hB, hokB], by omega⟩

end Sys2Proof.Machine
end

section
/-! PROOF. Where a PREPARE ends (44_transmitter.md R239): at its rate, its base clock or a divisor, in SYNTH, or in READY with
its results: O44, O45, O46, O51. -/
namespace Sys2Proof.Machine
open F32
variable {s t : State}

/-! ### The last tick of BUSY -/

theorem countdown_error (hc : s.ctl = .busy) (hb : s.busyLeft = 1) (h : prepareWork { s with busyLeft := 0 } = .error t) :
    s.countdown = t := by
  rw [countdown_last hc hb, completePrepare, h]

theorem countdown_ok (hc : s.ctl = .busy) (hb : s.busyLeft = 1) (h : prepareWork { s with busyLeft := 0 } = .ok t) :
    s.countdown = { t with valid := true, ctl := .ready } := by
  rw [countdown_last hc hb, completePrepare, h]

/-! ### The rate -/

/-- The rate table has a row exactly for RATE_SEL 0 to 5 (R132). -/
theorem rateTable_eq_none_iff (sel : BitVec 3) : rateTable sel = none ↔ 6 ≤ sel.toNat := by
  revert sel
  decide

theorem exists_rateTable_row {sel : BitVec 3} (h : sel.toNat ≤ 5) : ∃ fs fbck, rateTable sel = some (fs, fbck) := by
  cases hrow : rateTable sel with
  | none =>
    have := (rateTable_eq_none_iff sel).1 hrow
    omega
  | some row => exact ⟨row.1, row.2, rfl⟩

/-- Without a row the work ends at its first check. -/
theorem prepareWork_badRate (h : rateTable s.rateSel = none) :
    prepareWork s = .error (s.raiseFault .badRate (s.rateSel.setWidth 32)) := by
  simp only [prepareWork, bind, checkRate, h, Except.bind]

/-- Settles O44: RATE_SEL 6 and 7 have no row in the rate table. -/
theorem badRateFault : Obligations.BadRateFault := by
  unfold Obligations.BadRateFault
  exact fun s hc hb hsel => countdown_error hc hb (prepareWork_badRate ((rateTable_eq_none_iff _).2 hsel))

/-! ### The base clock -/

/-- The exponent field and the fraction field side by side: the 31 bits below the sign. -/
theorem extractLsb'_toNat_low31 (w : Word) :
    (w.extractLsb' 0 31).toNat = 2 ^ 23 * (w.extractLsb' 23 8).toNat + (w.extractLsb' 0 23).toNat := by
  simp only [BitVec.extractLsb'_toNat, Nat.shiftRight_eq_div_pow]
  omega

/-- A word whose exponent field is not all ones is a finite value with its sign bit, and is 0 exactly when the other 31 bits
are. -/
theorem flt_eq_fin {w : Word} (h : w.extractLsb' 23 8 ≠ 255) :
    ∃ mag, flt w = .fin (w.getLsbD 31) mag ∧ (mag = 0 ↔ w.extractLsb' 0 31 = 0) := by
  have hlow : w.extractLsb' 0 31 = 0 ↔ 2 ^ 23 * (w.extractLsb' 23 8).toNat + (w.extractLsb' 0 23).toNat = 0 := by
    rw [← extractLsb'_toNat_low31]
    exact BitVec.toNat_eq
  have h255 : (w.extractLsb' 23 8).toNat ≠ 255 := fun he => h (BitVec.eq_of_toNat_eq he)
  rw [hlow]
  by_cases hzero : (w.extractLsb' 23 8).toNat = 0
  · refine ⟨_, by rw [flt, if_neg h255, if_pos hzero], ?_⟩
    simp [hzero]
  · refine ⟨_, by rw [flt, if_neg h255, if_neg hzero], ?_⟩
    have hpos := Nat.two_pow_pos ((w.extractLsb' 23 8).toNat - 1)
    rw [Nat.mul_eq_zero]
    omega

theorem flt_not_finite {w : Word} (h : w.extractLsb' 23 8 = 255) : (flt w).isFinite = false := by
  have h255 : (w.extractLsb' 23 8).toNat = 255 := by rw [h]; rfl
  rw [flt, if_pos h255]
  split <;> rfl

/-- BASE_CLK is legal exactly when its sign bit is 0, its exponent field is not all ones and it is not +0.0 (R137). -/
theorem baseClkValid_iff (w : Word) :
    baseClkValid w = true ↔ w.getLsbD 31 = false ∧ w.extractLsb' 23 8 ≠ 255 ∧ w.extractLsb' 0 31 ≠ 0 := by
  by_cases hexp : w.extractLsb' 23 8 = 255
  · simp [baseClkValid, flt_not_finite hexp, hexp]
  · obtain ⟨mag, hflt, hzero⟩ := flt_eq_fin hexp
    rw [and_iff_right hexp, ne_eq, ← hzero, baseClkValid, hflt, ofNat_exact (by omega)]
    cases w.getLsbD 31 with
    | false => simp [isFinite, lt, key, Nat.pos_iff_ne_zero]
    | true => simp [isFinite, lt, key]

/-- With a legal rate and an illegal BASE_CLK the work ends at its second check. -/
theorem prepareWork_badBaseClk {fs fbck : Nat} (hr : rateTable s.rateSel = some (fs, fbck))
    (hb : baseClkValid s.baseClk = false) : prepareWork s = .error (s.raiseFault .badBaseClk s.baseClk) := by
  simp only [prepareWork, bind, checkRate, checkBaseClk, hr, hb, Bool.false_eq_true, if_false, Except.bind]

/-- Settles O45: the fields of a binary32 word say its sign, whether it is finite and whether it is 0. -/
theorem baseClockValidity : Obligations.BaseClockValidity := by
  unfold Obligations.BaseClockValidity
  refine ⟨baseClkValid_iff, fun s hc hb hsel hclk => ?_⟩
  obtain ⟨fs, fbck, hrow⟩ := exists_rateTable_row hsel
  exact countdown_error hc hb (prepareWork_badBaseClk (s := { s with busyLeft := 0 }) hrow hclk)

/-! ### The divisors -/

/-- Settles O46: a LOW or HIGH quotient is the result of the split, and an error of a divisor is that of the work. -/
theorem divisorRangeFaults : Obligations.DivisorRangeFaults := by
  unfold Obligations.DivisorRangeFaults
  refine ⟨fun s base target => ⟨fun h => ?_, fun h => ?_, fun h => ?_, fun h => ?_⟩,
    fun s fs fbck hc hb hrow hclk => ⟨fun t hA => ?_, fun t u hA hB => ?_⟩⟩
  · rw [computeDivA, computeDivisor, splitDivisor_low h]
    rfl
  · rw [computeDivA, computeDivisor, splitDivisor_high h]
    rfl
  · rw [computeDivB, computeDivisor, splitDivisor_low h]
    rfl
  · rw [computeDivB, computeDivisor, splitDivisor_high h]
    rfl
  · refine countdown_error hc hb ?_
    rw [prepareWork_eq (s := { s with busyLeft := 0 }) hrow hclk, hA]
    rfl
  · refine countdown_error hc hb ?_
    rw [prepareWork_eq (s := { s with busyLeft := 0 }) hrow hclk, hA, Except.bind, hB]
    rfl

/-! ### SYNTH and the encoding pass -/

theorem sampleAt_eq_none {sign : CubicSign} {step af : F32} {ceiling i : Nat} :
    sampleAt sign step af ceiling i = none ↔
      ¬ ((sampleValue sign step af i).isFinite = true ∧ (sampleValue sign step af i).roundHalfAway.natAbs ≤ ceiling) := by
  simp [sampleAt]

/-- An entry that holds the sample of its index: the value is finite and within the ceiling, and the entry is it, rounded. -/
theorem sampleValue_of_entry {sign : CubicSign} {step af : F32} {ceiling i : Nat} {entry : Word}
    (h : ∃ r, sampleAt sign step af ceiling i = some r ∧ entry = BitVec.ofInt 32 r) :
    ((sampleValue sign step af i).isFinite = true ∧ (sampleValue sign step af i).roundHalfAway.natAbs ≤ ceiling) ∧
      entry = BitVec.ofInt 32 (sampleValue sign step af i).roundHalfAway := by
  obtain ⟨r, hr, rfl⟩ := h
  obtain ⟨hfinite, hle, rfl⟩ := sampleAt_eq_some.1 hr
  exact ⟨⟨hfinite, hle⟩, rfl⟩

/-- A PREPARE whose checks pass and whose SYNTH completes: the work ends with the encoding pass over SYNTH's table. -/
theorem prepareWork_of_parts {fs fbck intA fracA intB fracB : Nat} {u : State}
    (hrow : rateTable s.rateSel = some (fs, fbck)) (hclk : baseClkValid s.baseClk = true)
    (hA : computeDivisor (flt s.baseClk) (ofNat 4) (ofNat fbck) = .ok intA fracA)
    (hB : computeDivisor (flt s.baseClk) (ofNat 2) (ofNat fs) = .ok intB fracB)
    (hcheck : checkSynthInputs fs { s with divA := d256Of intA fracA, divB := d256Of intB fracB } =
      .ok { s with divA := d256Of intA fracA, divB := d256Of intB fracB })
    (hsynth : synth fs { s with divA := d256Of intA fracA, divB := d256Of intB fracB } = .ok u) :
    prepareWork s = .ok (encodePass u) := by
  rw [prepareWork_eq hrow hclk, computeDivA_ok hA, Except.bind, computeDivB_ok hB, Except.bind, hcheck, Except.bind, hsynth]
  rfl

/-- SYNTH, where it completes, writes SAMPLE and nothing else. -/
theorem synth_ok_frame {fs : Nat} (h : synth fs s = .ok t) : ∃ v : Table, t = { s with sample := v } := by
  rcases synthFrom_frame (angleStep (flt s.toneFreq) (ofNat fs)) (ofInt s.amplitude.toInt) s.tableLen 0 s with
    ⟨v, hv⟩ | ⟨v, k, hv⟩
  · exact ⟨v, Except.ok.inj (h.symm.trans hv)⟩
  · cases h.symm.trans hv

/-- Settles O51: the two ends of SYNTH's loop, and the encoding pass over the table it made. -/
theorem synthesisResult : Obligations.SynthesisResult := by
  unfold Obligations.SynthesisResult
  refine ⟨fun s fs hwf => ⟨fun t h => ?_, fun t h => ?_⟩, ?_⟩
  · obtain ⟨hframe, htwf, hin, hout⟩ := synthFrom_ok hwf h
    simp only [Nat.zero_add] at hin hout
    exact ⟨hframe, htwf, fun i hi => sampleValue_of_entry (hin i (Nat.zero_le i) hi), fun i hi => hout i (.inr hi)⟩
  · obtain ⟨i, -, hi, hnone, hframe, -, hbelow, -⟩ := synthFrom_error hwf h
    rw [Nat.zero_add] at hi
    have hentry := fun k (hk : k < i) => sampleValue_of_entry (hbelow k (Nat.zero_le k) hk)
    exact ⟨i, hi, sampleAt_eq_none.1 hnone, fun k hk => (hentry k hk).1, hframe, fun k hk => (hentry k hk).2⟩
  · intro s u fs fbck intA fracA intB fracB hc hb hwf hrow hclk hA hB divided hcheck hsynth
    have hwork : prepareWork { s with busyLeft := 0 } = .ok (encodePass u) :=
      prepareWork_of_parts (s := { s with busyLeft := 0 }) hrow hclk hA hB hcheck hsynth
    obtain ⟨v, rfl⟩ := synth_ok_frame hsynth
    obtain ⟨w, hpass, hwwf, hin, hout⟩ := encodeFrom_spec s.tableLen 0 { divided with sample := v } hwf
    simp only [Nat.zero_add] at hin hout
    refine ⟨w, ?_, hwwf, fun i hi => hin i (Nat.zero_le i) hi, fun i hi => hout i (.inr hi)⟩
    rw [countdown_ok hc hb hwork, show encodePass { divided with sample := v } = _ from hpass]

end Sys2Proof.Machine
end

section
/-! PROOF. PREPARE completion is a function of the frozen configuration (44_transmitter.md R239, 41_synthesizer.md R157): two
states that agree on it go through the same checks to results that agree: O53. -/
namespace Sys2Proof.Machine
open F32
variable {s t : State} {N : Nat} {R R' : State → State → Prop}

/-! ### Outcomes that agree -/

/-- Two states that a fault of PREPARE has left alike, in what the host sees of it and in the divisors. -/
structure SameFault (s t : State) : Prop where
  ctl : s.ctl = t.ctl
  notValid : s.valid = false ∧ t.valid = false
  divA : s.divA = t.divA
  divB : s.divB = t.divB
  cause : s.cause = t.cause
  faultInfo : s.faultInfo = t.faultInfo

/-- Two outcomes of a part of PREPARE: both go on, in states related by `R`, or both stop with the same fault. -/
inductive SameOutcome (R : State → State → Prop) : Except State State → Except State State → Prop where
  | ok {s t : State} (h : R s t) : SameOutcome R (.ok s) (.ok t)
  | error {s t : State} (h : SameFault s t) : SameOutcome R (.error s) (.error t)

/-- Parts that agree, one after the other, agree. -/
theorem SameOutcome.bind {x y : Except State State} {f g : State → Except State State} (h : SameOutcome R x y)
    (hfg : ∀ s t, R s t → SameOutcome R' (f s) (g t)) : SameOutcome R' (x.bind f) (y.bind g) := by
  cases h with
  | ok h => exact hfg _ _ h
  | error h => exact .error h

theorem SameOutcome.map {x y : Except State State} {f : State → State} (h : SameOutcome R x y)
    (hf : ∀ s t, R s t → R' (f s) (f t)) : SameOutcome R' (x.map f) (y.map f) := by
  cases h with
  | ok h => exact .ok (hf _ _ h)
  | error h => exact .error h

/-- A check that both sides decide alike. -/
theorem SameOutcome.ite {c : Prop} [Decidable c] {x x' y y' : Except State State} (hyes : SameOutcome R x y)
    (hno : SameOutcome R x' y') : SameOutcome R (if c then x else x') (if c then y else y') := by
  by_cases h : c
  · rwa [if_pos h, if_pos h]
  · rwa [if_neg h, if_neg h]

/-- The same fault raised in two states with the same divisors. -/
theorem State.SameConfig.error (h : s.SameConfig t) (c : Cause) (info : Word) :
    SameOutcome R (.error (s.raiseFault c info)) (.error (t.raiseFault c info)) := by
  obtain ⟨-, -, -, -, -, -, -, -, hdivA, hdivB⟩ := h
  exact .error ⟨rfl, ⟨rfl, rfl⟩, hdivA.symm, hdivB.symm, rfl, rfl⟩

/-! ### The parts of PREPARE -/

/-- Two states in the middle of a PREPARE of `N` entries: the configuration agrees, and the first `n` samples do. -/
structure SameWork (N n : Nat) (s t : State) : Prop where
  len : s.tableLen = N
  config : s.SameConfig t
  sampleWf : s.sample.wf = true ∧ t.sample.wf = true
  wordWf : s.word.wf = true ∧ t.word.wf = true
  samples : ∀ k, k < n → s.sample.read k = t.sample.read k

theorem computeDivA_sameOutcome (base : F32) (fbck : Nat) (h : SameWork N 0 s t) :
    SameOutcome (SameWork N 0) (computeDivA base fbck s) (computeDivA base fbck t) := by
  unfold computeDivA
  split
  · exact h.config.error _ _
  · exact h.config.error _ _
  · obtain ⟨hlen, ⟨hcap, hsign, hctrl, hclk, htone, hamp, hceil, hsize, hdivA, hdivB⟩, hsample, hword, hread⟩ := h
    exact .ok ⟨hlen, ⟨hcap, hsign, hctrl, hclk, htone, hamp, hceil, hsize, rfl, hdivB⟩, hsample, hword, hread⟩

theorem computeDivB_sameOutcome (base : F32) (fs : Nat) (h : SameWork N 0 s t) :
    SameOutcome (SameWork N 0) (computeDivB base fs s) (computeDivB base fs t) := by
  unfold computeDivB
  split
  · exact h.config.error _ _
  · exact h.config.error _ _
  · obtain ⟨hlen, ⟨hcap, hsign, hctrl, hclk, htone, hamp, hceil, hsize, hdivA, hdivB⟩, hsample, hword, hread⟩ := h
    exact .ok ⟨hlen, ⟨hcap, hsign, hctrl, hclk, htone, hamp, hceil, hsize, hdivA, rfl⟩, hsample, hword, hread⟩

theorem checkSynthInputs_sameOutcome (fs : Nat) (h : SameWork N 0 s t) :
    SameOutcome (SameWork N 0) (checkSynthInputs fs s) (checkSynthInputs fs t) := by
  obtain ⟨hcap, -, hctrl, -, htone, -, hceil, hsize, -, -⟩ := h.config
  simp only [checkSynthInputs, State.tableLen, State.is24Bit, hcap, hctrl, htone, hceil, hsize]
  exact .ite (h.config.error _ _) (.ite (h.config.error _ _) (.ite (h.config.error _ _) (.ite (h.config.error _ _) (.ok h))))

/-- Writing the same sample to entry `i` makes one more sample agree. -/
theorem SameWork.write {i : Nat} (h : SameWork N i s t) (v : Word) :
    SameWork N (i + 1) { s with sample := s.sample.write i v } { t with sample := t.sample.write i v } where
  len := h.len
  config := h.config
  sampleWf := ⟨Table.write_wf h.sampleWf.1 _ _, Table.write_wf h.sampleWf.2 _ _⟩
  wordWf := h.wordWf
  samples k hk := by
    by_cases hki : k = i
    · subst hki
      rw [Table.read_write_same h.sampleWf.1, Table.read_write_same h.sampleWf.2]
    · rw [Table.read_write_other h.sampleWf.1 hki, Table.read_write_other h.sampleWf.2 hki, h.samples k (by omega)]

theorem synthFrom_sameOutcome (step af : F32) {n i : Nat} (h : SameWork N i s t) :
    SameOutcome (SameWork N (i + n)) (synthFrom step af n i s) (synthFrom step af n i t) := by
  induction n generalizing i s t with
  | zero => exact .ok h
  | succ n ih =>
    obtain ⟨-, hsign, -, -, -, -, hceil, -, -, -⟩ := h.config
    have hat : sampleAt t.params.cubicSign step af t.ampCeiling.toNat i =
        sampleAt s.params.cubicSign step af s.ampCeiling.toNat i := by rw [hsign, hceil]
    simp only [synthFrom, hat]
    split
    · exact h.config.error _ _
    · rw [show i + (n + 1) = i + 1 + n by omega]
      exact ih (h.write _)

theorem synth_sameOutcome (fs : Nat) (h : SameWork N 0 s t) : SameOutcome (SameWork N N) (synth fs s) (synth fs t) := by
  obtain ⟨-, -, -, -, htone, hamp, -, hsize, -, -⟩ := h.config
  rw [synth, synth, State.tableLen, State.tableLen, htone, hamp, hsize, show s.tableSize.toNat = N from h.len]
  simpa using synthFrom_sameOutcome _ _ (n := N) h

/-- What two PREPAREs of `N` entries that succeed have written alike. -/
structure SamePrepared (N : Nat) (s t : State) : Prop where
  divA : s.divA = t.divA
  divB : s.divB = t.divB
  samples : ∀ k, k < N → s.sample.read k = t.sample.read k
  words : ∀ k, k < N → s.word.read k = t.word.read k

theorem SameWork.encodePass (h : SameWork N N s t) : SamePrepared N (encodePass s) (encodePass t) := by
  obtain ⟨-, -, hctrl, -, -, -, -, hsize, hdivA, hdivB⟩ := h.config
  have hlen : t.tableLen = N := by rw [State.tableLen, hsize]; exact h.len
  have hmode : t.is24Bit = s.is24Bit := by rw [State.is24Bit, State.is24Bit, hctrl]
  obtain ⟨v, hs, -, hsin, -⟩ := encodeFrom_spec N 0 s h.wordWf.1
  obtain ⟨w, ht, -, htin, -⟩ := encodeFrom_spec N 0 t h.wordWf.2
  rw [Machine.encodePass, Machine.encodePass, h.len, hlen, hs, ht]
  refine ⟨hdivA.symm, hdivB.symm, h.samples, fun k hk => ?_⟩
  rw [hsin k (Nat.zero_le k) (by omega), htin k (Nat.zero_le k) (by omega), h.samples k hk, hmode]

/-! ### The whole completion -/

/-- The checks of rate and base clock read the configuration only, and each part after them agrees. -/
theorem prepareWork_sameOutcome (h : SameWork N 0 s t) : SameOutcome (SamePrepared N) (prepareWork s) (prepareWork t) := by
  obtain ⟨-, -, hctrl, hclk, -, -, -, -, -, -⟩ := h.config
  have hsel : t.rateSel = s.rateSel := by rw [State.rateSel, State.rateSel, hctrl]
  cases hrow : rateTable s.rateSel with
  | none =>
    rw [prepareWork_badRate hrow, prepareWork_badRate (hsel ▸ hrow), hsel]
    exact h.config.error _ _
  | some row =>
    obtain ⟨fs, fbck⟩ := row
    cases hvalid : baseClkValid s.baseClk with
    | false =>
      rw [prepareWork_badBaseClk hrow hvalid, prepareWork_badBaseClk (hsel ▸ hrow) (hclk ▸ hvalid), hclk]
      exact h.config.error _ _
    | true =>
      rw [prepareWork_eq hrow hvalid, prepareWork_eq (hsel ▸ hrow) (hclk ▸ hvalid), hclk]
      have hdivA := computeDivA_sameOutcome (flt s.baseClk) fbck h
      have hdivB := hdivA.bind fun _ _ => computeDivB_sameOutcome (flt s.baseClk) fs
      have hcheck := hdivB.bind fun _ _ => checkSynthInputs_sameOutcome fs
      have hsynth := hcheck.bind fun _ _ => synth_sameOutcome fs
      exact hsynth.map fun _ _ => SameWork.encodePass

/-- Settles O53: the work of the two states stops with the same fault, or goes through with the same divisors and
tables. -/
theorem prepareDependsOnConfigurationOnly : Obligations.PrepareDependsOnConfigurationOnly := by
  unfold Obligations.PrepareDependsOnConfigurationOnly
  intro s s' hconfig hsample hsample' hword hword'
  have hwork : SameOutcome (SamePrepared s.tableLen) (prepareWork s) (prepareWork s') :=
    prepareWork_sameOutcome ⟨rfl, hconfig, ⟨hsample, hsample'⟩, ⟨hword, hword'⟩, nofun⟩
  unfold completePrepare
  generalize prepareWork s = x, prepareWork s' = y at hwork
  cases hwork with
  | ok h => exact ⟨rfl, rfl, h.divA, h.divB, nofun, fun _ i hi => ⟨h.samples i hi, h.words i hi⟩⟩
  | error h =>
    obtain ⟨hs, hs'⟩ := h.notValid
    exact ⟨h.ctl, hs.trans hs'.symm, h.divA, h.divB, fun _ => ⟨h.cause, h.faultInfo⟩,
      fun hvalid => absurd (hs.symm.trans hvalid) nofun⟩

end Sys2Proof.Machine
end

section
/-! PROOF. The inputs of SYNTH, checked in their order, and where a PREPARE ends at one of them or in SYNTH
(41_synthesizer.md R151): O50. -/
namespace Sys2Proof.Machine
open F32
variable {s : State}

/-! ### The checks on bits and numbers -/

/-- TONE_FREQ passes check 2 exactly when its exponent field is not all ones and its sign bit is 0, or it is −0.0. -/
theorem toneLegal_iff (w : Word) :
    ((flt w).isFinite && (flt w).ge (ofNat 0)) = true ↔
      w.extractLsb' 23 8 ≠ 255 ∧ (w.getLsbD 31 = false ∨ w.extractLsb' 0 31 = 0) := by
  by_cases hexp : w.extractLsb' 23 8 = 255
  · simp [flt_not_finite hexp, hexp]
  · obtain ⟨mag, hflt, hzero⟩ := flt_eq_fin hexp
    rw [and_iff_right hexp, ← hzero, hflt, ofNat_exact (by omega)]
    cases w.getLsbD 31 with
    | false => simp [isFinite, ge, key]
    | true => simp [isFinite, ge, key]

theorem ceilMax_eq (is24Bit : Bool) : ceilMax is24Bit = if is24Bit then 8388606 else 2147483646 := by
  cases is24Bit <;> rfl

/-- N·F/R is an integer exactly when R divides N·F, counted in units of 2^-149. -/
theorem wholePeriods_iff (n : Nat) (freq : F32) (fs : Nat) :
    wholePeriods n freq fs = true ↔ ∃ (neg : Bool) (mag : Nat), freq = .fin neg mag ∧ fs * 2 ^ 149 ∣ n * mag := by
  cases freq with
  | nan => simp [wholePeriods]
  | inf neg => simp [wholePeriods]
  | fin neg mag =>
    rw [wholePeriods, beq_iff_eq, unit_eq, Nat.mul_comm _ fs, ← Nat.dvd_iff_mod_eq_zero]
    exact ⟨fun h => ⟨neg, mag, rfl, h⟩, fun ⟨_, _, heq, h⟩ => by cases heq; exact h⟩

/-! ### Where PREPARE ends -/

/-- After two accepted divisors the work goes on with the checks, SYNTH and the encoding pass. -/
theorem prepareWork_of_divisors {a b : State} {fs fbck : Nat} (hrow : rateTable s.rateSel = some (fs, fbck))
    (hclk : baseClkValid s.baseClk = true) (hA : computeDivA (flt s.baseClk) fbck s = .ok a)
    (hB : computeDivB (flt s.baseClk) fs a = .ok b) :
    prepareWork s = ((checkSynthInputs fs b).bind (synth fs)).map encodePass := by
  rw [prepareWork_eq hrow hclk, hA, Except.bind, hB]
  rfl

/-- Settles O50: each check of R151 judges what the statement says, and an error of the checks or of SYNTH is that of the
work. -/
theorem synthInputChecks : Obligations.SynthInputChecks := by
  unfold Obligations.SynthInputChecks
  refine ⟨fun s fs => ?_, fun s a b fs fbck hc hb hrow hclk hA hB => ?_⟩
  · intro sizeOk toneOk ceilOk whole
    have hsize : (s.tableLen = 0 ∨ s.params.tableCap < s.tableLen) ↔ ¬ sizeOk := by
      simp only [sizeOk, State.tableLen]
      omega
    have htone : (!((flt s.toneFreq).isFinite && (flt s.toneFreq).ge (ofNat 0))) = true ↔ ¬ toneOk := by
      rw [Bool.not_eq_true', ← Bool.not_eq_true, toneLegal_iff]
    have hceil : ceilMax s.is24Bit < s.ampCeiling.toNat ↔ ¬ ceilOk := by
      rw [ceilMax_eq, ← Nat.not_le]
      rfl
    have hwhole : (!wholePeriods s.tableLen (flt s.toneFreq) fs) = true ↔ ¬ whole := by
      rw [Bool.not_eq_true', ← Bool.not_eq_true, wholePeriods_iff]
      rfl
    rw [checkSynthInputs]
    refine ⟨fun h => ?_, fun h₁ h => ?_, fun h₁ h₂ h => ?_, fun h₁ h₂ h₃ h => ?_, fun h₁ h₂ h₃ h₄ => ?_⟩
    · rw [if_pos (hsize.2 h)]
      rfl
    · rw [if_neg (fun hc => hsize.1 hc h₁), if_pos (htone.2 h)]
      rfl
    · rw [if_neg (fun hc => hsize.1 hc h₁), if_neg (fun hc => htone.1 hc h₂), if_pos (hceil.2 h)]
      rfl
    · rw [if_neg (fun hc => hsize.1 hc h₁), if_neg (fun hc => htone.1 hc h₂), if_neg (fun hc => hceil.1 hc h₃),
        if_pos (hwhole.2 h)]
      rfl
    · rw [if_neg (fun hc => hsize.1 hc h₁), if_neg (fun hc => htone.1 hc h₂), if_neg (fun hc => hceil.1 hc h₃),
        if_neg (fun hc => hwhole.1 hc h₄)]
  · have hwork := prepareWork_of_divisors (s := { s with busyLeft := 0 }) hrow hclk hA hB
    refine ⟨fun t hcheck => countdown_error hc hb ?_, fun t hcheck hsynth => countdown_error hc hb ?_⟩
    · rw [hwork, hcheck]
      rfl
    · rw [hwork, hcheck, Except.bind, hsynth]
      rfl

end Sys2Proof.Machine
end

section
/-! PROOF. The first sample (41_synthesizer.md R158): from the angle ±0 on, every operation of the series answers a zero, or a
NaN where an intermediate has overflowed: O52. -/
namespace Sys2Proof.Machine
open F32

namespace F32

theorem round_zero (neg : Bool) {den : Nat} (hd : 0 < den) : round neg 0 den = .fin neg 0 := by
  simpa using round_exact neg hd representable_zero

/-- The values that an operation on a zero may answer: a zero of either sign, or NaN (∞ ⊗ 0, 0 ⊘ 0). -/
inductive NanOrZero : F32 → Prop where
  | nan : NanOrZero .nan
  | zero (neg : Bool) : NanOrZero (.fin neg 0)

/-- Whatever the other factor: an infinity gives NaN, a finite one a zero. -/
theorem NanOrZero.mul {z : F32} (hz : NanOrZero z) (x : F32) : NanOrZero (x.mul z) := by
  cases hz with
  | nan => cases x <;> exact .nan
  | zero n =>
    cases x with
    | nan => exact .nan
    | inf m => exact .nan
    | fin m a =>
      rw [F32.mul, Nat.mul_zero, round_zero _ unit_pos]
      exact .zero _

theorem NanOrZero.div {z : F32} (hz : NanOrZero z) (x : F32) : NanOrZero (z.div x) := by
  cases hz with
  | nan => exact .nan
  | zero n =>
    cases x with
    | nan => exact .nan
    | inf m => exact .zero _
    | fin m b =>
      rw [F32.div]
      split
      · exact .nan
      · rw [Nat.zero_mul, round_zero _ (by omega)]
        exact .zero _

theorem NanOrZero.add {x y : F32} (hx : NanOrZero x) (hy : NanOrZero y) : NanOrZero (x.add y) := by
  cases hx with
  | nan => exact .nan
  | zero n =>
    cases hy with
    | nan => exact .nan
    | zero m =>
      rw [add_fin n m 0 0 0 (by cases n <;> cases m <;> rfl), if_pos rfl]
      exact .zero _

theorem NanOrZero.sub {x y : F32} (hx : NanOrZero x) (hy : NanOrZero y) : NanOrZero (x.sub y) := by
  refine hx.add ?_
  cases hy with
  | nan => exact .nan
  | zero n => exact .zero _

theorem NanOrZero.roundHalfAway {z : F32} (hz : NanOrZero z) : z.roundHalfAway = 0 := by
  cases hz with
  | nan => rfl
  | zero n =>
    have hhalf : (2 * 0 + unit) / (2 * unit) = 0 := Nat.div_eq_of_lt (by have := unit_pos; omega)
    rw [F32.roundHalfAway, hhalf]
    cases n <;> rfl

end F32

/-- Each term of the series is a product with the angle. -/
theorem F32.NanOrZero.approx {a : F32} (ha : NanOrZero a) (sign : CubicSign) : NanOrZero (approx sign a) := by
  have h3 := (ha.mul (a.mul a)).div (ofNat 6)
  have h5 := (ha.mul (((a.mul a).mul a).mul a)).div (ofNat 120)
  cases sign with
  | minus => exact (ha.sub h3).add h5
  | plus => exact (ha.add h3).add h5

/-- The value at index 0 is a zero or NaN, whatever the step and the amplitude. -/
theorem sampleValue_zero (sign : CubicSign) (step af : F32) : NanOrZero (sampleValue sign step af 0) := by
  have hindex : NanOrZero (ofNat 0) := by
    rw [ofNat_exact (by omega), Nat.zero_mul]
    exact .zero _
  exact ((hindex.mul step).approx sign).mul af

/-- Settles O52: entry 0 holds the value at index 0, rounded. -/
theorem firstSampleIsZero : Obligations.FirstSampleIsZero := by
  unfold Obligations.FirstSampleIsZero
  intro s t fs hwf hlen h
  obtain ⟨-, -, hin, -⟩ := synthFrom_ok hwf h
  have hentry := hin 0 (Nat.le_refl 0) (by rw [Nat.zero_add]; exact hlen)
  rw [(sampleValue_of_entry hentry).2, (sampleValue_zero _ _ _).roundHalfAway]
  rfl

end Sys2Proof.Machine
end

section
/-! PROOF. The encoder's bit reversal (42_encoder.md R173 to R175): its bits, its being its own inverse, and the bijection
that follows from the closed form: O21, O22, O23. -/
namespace Sys2Proof.Machine

/-- The reversal is its own inverse (R175). -/
@[simp] theorem rev32_rev32 (u : Word) : rev32 (rev32 u) = u := BitVec.reverse_reverse_eq

/-- The top bit alone goes to bit 0 alone. -/
theorem rev32_top_bit : rev32 0x80000000 = 0x00000001 := by
  refine BitVec.eq_of_getLsbD_eq fun k hk => ?_
  rw [getLsbD_rev32 _ hk]
  revert k
  decide

theorem rev32_zero : rev32 0 = 0 := by
  refine BitVec.eq_of_getLsbD_eq fun k hk => ?_
  rw [getLsbD_rev32 _ hk]
  simp

/-- Settles O21: the bits are `getLsbD_rev32`, and bit 0 goes to the top because the top bit goes to bit 0. -/
theorem bitReversal : Obligations.BitReversal := by
  unfold Obligations.BitReversal
  refine ⟨fun u _ hk => getLsbD_rev32 u hk, rev32_top_bit, ?_, rev32_zero⟩
  rw [← rev32_top_bit, rev32_rev32]

/-- Settles O22: both modes put the whole sample together and reverse it. -/
theorem encoderClosedForm : Obligations.EncoderClosedForm := by
  unfold Obligations.EncoderClosedForm
  exact encodeSample_eq

/-- Settles O23: by the closed form, encoding and decoding are the same reversal. -/
theorem encoderBijection : Obligations.EncoderBijection := by
  unfold Obligations.EncoderBijection
  constructor
  · intro sample is24Bit
    rw [encodeSample_eq, decodeSample, rev32_rev32]
  · intro w is24Bit
    rw [encodeSample_eq, decodeSample, rev32_rev32]

end Sys2Proof.Machine
end

section
/-! PROOF. The micro-step (43_sequencers.md R193): a delay tick, or the micro-instruction at the sequencer's pc, which
drives a clock line and retires: O25, O28. -/
namespace Sys2Proof

/-- The DELAY operand of a micro-instruction (30_encoding.md R102); a host command has none. -/
def Instr.delay : Instr → BitVec 2
  | .nop | .prepare | .start => 0
  | .setclk _ delay | .refill _ delay | .shift1 _ delay => delay

namespace Machine
variable {s t : State} {X : SeqId} {i : Instr} {u : Byte}

/-! ### What a micro-instruction makes of the clocks -/

/-- A byte's DELAY field is the operand of the instruction it selects. -/
theorem delay_of_decodeUop (h : decodeUop u = .ok i) : i.delay = uopDelay u := by
  have he := decodeUop_ok_iff.1 h
  cases i
  case setclk side delay => cases he; exact (uopDelay_uopWord side 0b00 delay).symm
  case refill side delay => cases he; exact (uopDelay_uopWord side 0b01 delay).symm
  case shift1 side delay => cases he; exact (uopDelay_uopWord side 0b10 delay).symm
  all_goals cases format_of_decodeUop h

/-- The state with SIDE driven onto the clock line that a micro-instruction drives: that of its sequencer for SETCLK, BCK
for REFILL and SHIFT1 (R194 to R196; `exec_eq_retire`). -/
def State.drivenBy (i : Instr) (s : State) : State :=
  match i with
  | .nop | .prepare | .start => s
  | .setclk side _ => s.driveClk s.active side
  | .refill side _ | .shift1 side _ => s.driveBck side

theorem reload_sameClocks (s : State) : s.SameClocks s.reload ∧ s.reload.active = s.active := by
  rcases reload_cases s with ⟨w, rest, -, he⟩ | ⟨-, he⟩ <;> simp [he, State.SameClocks]

/-- A micro-instruction drives its clock line, may work on the buffer, and retires with its DELAY. -/
theorem exec_eq_retire (hi : i.format = .uop) (s : State) :
    ∃ r, exec i s = .next (r.retire i.delay) ∧ r.active = s.active ∧ (s.drivenBy i).SameClocks r := by
  cases i
  case setclk side delay => exact ⟨_, rfl, driveClk_active s s.active side, rfl, rfl, rfl, rfl, rfl, rfl, rfl, rfl⟩
  case refill side delay =>
    obtain ⟨hreload, hactive⟩ := reload_sameClocks (s.driveBck side)
    by_cases hempty : s.osrCnt = 32
    · exact ⟨_, exec_refill_empty hempty side delay, hactive, hreload⟩
    · exact ⟨_, exec_refill_full hempty side delay, rfl, rfl, rfl, rfl, rfl, rfl, rfl, rfl, rfl⟩
  case shift1 side delay => exact ⟨(s.driveBck side).shiftOut, rfl, rfl, rfl, rfl, rfl, rfl, rfl, rfl, rfl, rfl⟩
  all_goals cases hi

theorem drivenBy_seq (i : Instr) (s : State) (X : SeqId) : (s.drivenBy i).seq X = s.seq X := by
  cases i <;> cases X <;> simp [State.drivenBy]

theorem State.SameClocks.seq_eq (h : s.SameClocks t) (X : SeqId) : t.seq X = s.seq X := by
  obtain ⟨hA, hB, -⟩ := h
  cases X
  · exact hA
  · exact hB

theorem retire_of_active (ha : s.active = X) (delay : BitVec 2) :
    s.retire delay = s.setSeq X ((s.seq X).advance delay) := by
  rw [State.retire, ha]

theorem seq_setSeq_same (X : SeqId) (q : Sequencer) (s : State) : (s.setSeq X q).seq X = q := by
  cases X <;> rfl

/-- The end of every micro-instruction for its own sequencer (R193). -/
theorem exec_advances (hi : i.format = .uop) (ha : s.active = X) (h : exec i s = .next t) :
    t.seq X = (s.seq X).advance i.delay := by
  obtain ⟨r, hr, hactive, hclocks⟩ := exec_eq_retire hi s
  cases hr.symm.trans h
  rw [retire_of_active (hactive.trans ha), seq_setSeq_same, hclocks.seq_eq, drivenBy_seq]

/-! ### The micro-step -/

@[simp] theorem microStepIf_true (X : SeqId) (s : State) : microStepIf true X s = microStep X s := rfl
@[simp] theorem microStepIf_false (X : SeqId) (s : State) : microStepIf false X s = .next s := rfl

theorem microStep_delay (hd : (s.seq X).dly ≠ 0) :
    microStep X s = .next (s.setSeq X { s.seq X with dly := (s.seq X).dly - 1 }) := if_pos hd

theorem microStep_exec (hd : (s.seq X).dly = 0) (hi : decodeUop (romFetch (s.rom X) (s.seq X).pc) = .ok i) :
    microStep X s = exec i { s with active := X } := by
  rw [microStep, if_neg (Decidable.not_not.2 hd), execWord, decodeBytes_singleton, hi]

/-- Settles O28: a word that decodes executes and retires, in the frame of every micro-step. -/
theorem microStepEffect : Obligations.MicroStepEffect := by
  unfold Obligations.MicroStepEffect
  refine fun s X => ⟨microStep_delay, fun u hd hu hrsv hop => ?_⟩
  subst hu
  obtain ⟨i, hi⟩ := decodeUop_selects_iff.2 ⟨hrsv, hop⟩
  have hf := format_of_decodeUop hi
  obtain ⟨t, ht⟩ := exec_answers i { s with active := X }
  have hstep : microStep X s = .next t := (microStep_exec hd hi).trans ht
  have hframe := microStep_frame hstep
  refine ⟨i, t, hi, ht, hstep, ?_, hframe.other, hframe.control⟩
  rw [exec_advances hf rfl ht, delay_of_decodeUop hi]
  cases X <;> rfl

/-! ### SETCLK -/

theorem exec_setclk (ha : s.active = X) (side : Bool) (delay : BitVec 2) :
    exec (.setclk side delay) s = .next ((s.driveClk X side).setSeq X ((s.seq X).advance delay)) := by
  have hdriven : (s.driveClk X side).active = X := (driveClk_active s X side).trans ha
  rw [exec, execSetclk, ha, retire_of_active hdriven]
  cases X <;> rfl

/-- What SEQ_A fetches from its fixed store is REFILL or SHIFT1 (R106). -/
theorem eq_of_decodeUop_romA {pc : BitVec 1} (h : decodeUop (romFetch romAInit pc) = .ok i) :
    i = if pc = 0 then .refill false 1 else .shift1 true 1 :=
  Except.ok.inj (h.symm.trans (decodeUop_romA pc))

/-- Settles O25: SETCLK drives the line of its sequencer and retires; ROM_A decodes to REFILL and SHIFT1. -/
theorem setclkEffect : Obligations.SetclkEffect := by
  unfold Obligations.SetclkEffect
  refine ⟨fun u => decodeUop_setclk, fun pc h => ?_, fun s side delay =>
    ⟨fun ha => exec_setclk ha side delay, fun ha => exec_setclk ha side delay⟩⟩
  have hi := eq_of_decodeUop_romA (decodeUop_setclk h)
  split at hi <;> cases hi

/-- Program B in the ticks that are no delay ticks (43_sequencers.md R198): LRCK is high at index 0 and low at index 1. -/
theorem microStep_B_eq (hrom : s.romB = romBInit) (hd : s.seqB.dly = 0) :
    microStep .B s = .next { s with active := .B, lrck := s.seqB.pc == 0, seqB := s.seqB.advance 0 } := by
  have hi : decodeUop (romFetch (s.rom .B) (s.seq .B).pc) = .ok (.setclk (s.seqB.pc == 0) 0) := by
    rw [rom_B, hrom]
    exact decodeUop_romB _
  exact (microStep_exec (X := .B) hd hi).trans (exec_setclk (X := .B) rfl _ _)

end Machine
end Sys2Proof
end

section
/-! PROOF. PREPARE completion does not read the outside's schedule (log entry 4): the countdown of a state and that of
the same state with another schedule do the same. -/
namespace Sys2Proof.Machine
variable {s : State} {host : List HostEvent}

/-- The state with another schedule of outside events. -/
def State.withHost (host : List HostEvent) (s : State) : State := { s with host := host }

/-- An outcome of a part of PREPARE with another schedule in its state (`prepareWork_withHost`). -/
def outcomeWithHost (host : List HostEvent) : Except State State → Except State State
  | .ok s => .ok (s.withHost host)
  | .error s => .error (s.withHost host)

theorem bind_withHost {f : State → Except State State} (hf : ∀ s, f (s.withHost host) = outcomeWithHost host (f s))
    (x : Except State State) : (outcomeWithHost host x).bind f = outcomeWithHost host (x.bind f) := by
  cases x with
  | ok s => exact hf s
  | error s => rfl

theorem map_withHost {f : State → State} (hf : ∀ s, f (s.withHost host) = (f s).withHost host) (x : Except State State) :
    (outcomeWithHost host x).map f = outcomeWithHost host (x.map f) := by
  cases x with
  | ok s => exact congrArg Except.ok (hf s)
  | error s => rfl

theorem computeDivA_withHost (base : F32) (fbck : Nat) (s : State) :
    computeDivA base fbck (s.withHost host) = outcomeWithHost host (computeDivA base fbck s) := by
  unfold computeDivA
  split <;> rfl

theorem computeDivB_withHost (base : F32) (fs : Nat) (s : State) :
    computeDivB base fs (s.withHost host) = outcomeWithHost host (computeDivB base fs s) := by
  unfold computeDivB
  split <;> rfl

theorem checkSynthInputs_withHost (fs : Nat) (s : State) :
    checkSynthInputs fs (s.withHost host) = outcomeWithHost host (checkSynthInputs fs s) := by
  simp only [checkSynthInputs, apply_ite (outcomeWithHost host)]
  rfl

theorem synthFrom_withHost (step af : F32) (n i : Nat) (s : State) :
    synthFrom step af n i (s.withHost host) = outcomeWithHost host (synthFrom step af n i s) := by
  induction n generalizing i s with
  | zero => rfl
  | succ n ih =>
    have hat : sampleAt (s.withHost host).params.cubicSign step af (s.withHost host).ampCeiling.toNat i =
        sampleAt s.params.cubicSign step af s.ampCeiling.toNat i := rfl
    rw [synthFrom, synthFrom, hat]
    split
    · rfl
    · exact ih _ { s with sample := s.sample.write i _ }

theorem synth_withHost (fs : Nat) (s : State) :
    synth fs (s.withHost host) = outcomeWithHost host (synth fs s) := synthFrom_withHost _ _ _ _ s

theorem encodeFrom_withHost (n i : Nat) (s : State) :
    encodeFrom n i (s.withHost host) = (encodeFrom n i s).withHost host := by
  induction n generalizing i s with
  | zero => rfl
  | succ n ih => exact ih _ { s with word := s.word.write i _ }

theorem encodePass_withHost (s : State) : encodePass (s.withHost host) = (encodePass s).withHost host :=
  encodeFrom_withHost _ _ s

theorem prepareWork_withHost (s : State) : prepareWork (s.withHost host) = outcomeWithHost host (prepareWork s) := by
  cases hrow : rateTable s.rateSel with
  | none => rw [prepareWork_badRate hrow, prepareWork_badRate (s := s.withHost host) hrow]; rfl
  | some row =>
    cases hclk : baseClkValid s.baseClk with
    | false => rw [prepareWork_badBaseClk hrow hclk, prepareWork_badBaseClk (s := s.withHost host) hrow hclk]; rfl
    | true =>
      rw [prepareWork_eq hrow hclk, prepareWork_eq (s := s.withHost host) hrow hclk, computeDivA_withHost,
        bind_withHost (computeDivB_withHost _ _), bind_withHost (checkSynthInputs_withHost _),
        bind_withHost (synth_withHost _), map_withHost encodePass_withHost]
      rfl

theorem completePrepare_withHost (s : State) : completePrepare (s.withHost host) = (completePrepare s).withHost host := by
  rw [completePrepare, completePrepare, prepareWork_withHost]
  cases prepareWork s <;> rfl

theorem countdown_withHost (s : State) : (s.withHost host).countdown = s.countdown.withHost host := by
  by_cases hc : s.ctl = .busy
  · by_cases hleft : s.busyLeft - 1 = 0
    · simpa [State.countdown, State.withHost, hc, hleft] using completePrepare_withHost { s with busyLeft := 0 }
    · simp [State.countdown, State.withHost, hc, hleft]
  · rw [countdown_of_not_busy hc, countdown_of_not_busy (s := s.withHost host) hc]

end Sys2Proof.Machine
end

section
/-! PROOF. What a step leaves of the output side where no micro-instruction executes (43_sequencers.md R200), and what
Program A keeps of the shift buffer (R196, R197): O29, O60. -/
namespace Sys2Proof.Machine
variable {s t u : State}

/-! ### The output side where no micro-instruction executes -/

/-- Two states with the same output side: the lines and the shift buffer. -/
structure SameOutputs (s t : State) : Prop where
  data : t.data = s.data
  bck : t.bck = s.bck
  lrck : t.lrck = s.lrck
  osr : t.osr = s.osr
  osrCnt : t.osrCnt = s.osrCnt

/-- Two states with the same output side in which both programs stand at the same place. -/
structure SameProgress (s t : State) : Prop extends SameOutputs s t where
  place : ∀ X, (t.seq X).pc = (s.seq X).pc ∧ (t.seq X).dly = (s.seq X).dly

theorem SameOutputs.trans (h : SameOutputs s t) (h' : SameOutputs t u) : SameOutputs s u :=
  ⟨h'.data.trans h.data, h'.bck.trans h.bck, h'.lrck.trans h.lrck, h'.osr.trans h.osr, h'.osrCnt.trans h.osrCnt⟩

theorem SameOutputs.lines (h : SameOutputs s t) : t.data = s.data ∧ t.bck = s.bck ∧ t.lrck = s.lrck :=
  ⟨h.data, h.bck, h.lrck⟩

theorem SameProgress.trans (h : SameProgress s t) (h' : SameProgress t u) : SameProgress s u :=
  ⟨h.toSameOutputs.trans h'.toSameOutputs, fun X =>
    ⟨(h'.place X).1.trans (h.place X).1, (h'.place X).2.trans (h.place X).2⟩⟩

theorem SameProgress.of_sequencers (h : SameOutputs s t) (hA : t.seqA = s.seqA) (hB : t.seqB = s.seqB) :
    SameProgress s t :=
  ⟨h, fun X => by cases X <;> simp [hA, hB]⟩

/-- The countdown writes what belongs to PREPARE, and no more (44_transmitter.md R239). -/
theorem countdown_frame (s : State) : ∃ ctl cause valid info left divA divB sample word,
    s.countdown = { s with
      ctl := ctl, cause := cause, valid := valid, faultInfo := info, busyLeft := left, divA := divA, divB := divB,
      sample := sample, word := word } := by
  by_cases hc : s.ctl = .busy
  · simp only [State.countdown, if_pos hc]
    split
    · rcases completePrepare_cases { s with busyLeft := s.busyLeft - 1 } with
        ⟨_, _, _, _, _, _, _, _, -, -, -, -, -, -, -, he, -⟩ | ⟨_, _, _, _, _, -, -, he⟩
      · exact ⟨_, _, _, _, _, _, _, _, _, he⟩
      · exact ⟨_, _, _, _, _, _, _, _, _, he⟩
    · exact ⟨_, _, _, _, _, _, _, _, _, rfl⟩
  · exact ⟨_, _, _, _, _, _, _, _, _, countdown_of_not_busy hc⟩

theorem countdown_sameProgress (s : State) : SameProgress s s.countdown := by
  obtain ⟨_, _, _, _, _, _, _, _, _, he⟩ := countdown_frame s
  rw [he]
  exact .of_sequencers ⟨rfl, rfl, rfl, rfl, rfl⟩ rfl rfl

/-- Countdown and dividers. -/
theorem tickFront_sameProgress (s : State) : SameProgress s s.tickFront := by
  refine (countdown_sameProgress s).trans ?_
  rw [tickFront_eq]
  refine ⟨⟨rfl, rfl, rfl, rfl, rfl⟩, fun X => ?_⟩
  cases X
  · simp only [seq_A]; split <;> exact ⟨rfl, rfl⟩
  · simp only [seq_B]; split <;> exact ⟨rfl, rfl⟩

theorem feed_settle_sameProgress (h : feed s.settle = .next t) : SameProgress s t := by
  obtain ⟨_, _, _, _, rfl, -⟩ := feed_settle_frame h
  exact .of_sequencers ⟨rfl, rfl, rfl, rfl, rfl⟩ rfl rfl

/-- A sequencer that does not fire, or is in a delay tick, leaves the output side alone. -/
theorem microStepIf_sameOutputs {b : Bool} {X : SeqId} (hidle : b = false ∨ (s.seq X).dly ≠ 0)
    (h : microStepIf b X s = .next t) : SameOutputs s t := by
  cases b with
  | false => cases h; exact ⟨rfl, rfl, rfl, rfl, rfl⟩
  | true =>
    have hd : (s.seq X).dly ≠ 0 := by simpa using hidle
    cases (microStep_delay hd).symm.trans h
    cases X <;> exact ⟨rfl, rfl, rfl, rfl, rfl⟩

theorem baseTick_sameOutputs (hidle : ∀ X, s.countdown.fires X = false ∨ (s.seq X).dly ≠ 0)
    (h : baseTick s = .next t) : SameOutputs s t := by
  obtain ⟨u, v, hu, hv, hf⟩ := baseTick_cases h
  have hfront := tickFront_sameProgress s
  have huB := microStepIf_sameOutputs ((hidle .B).imp_right (by rw [(hfront.place .B).2]; exact id)) hu
  have huA : u.seq .A = s.tickFront.seq .A := (microStepIf_frame hu).other .A nofun
  have hvA := microStepIf_sameOutputs ((hidle .A).imp_right (by rw [huA, (hfront.place .A).2]; exact id)) hv
  exact hfront.toSameOutputs.trans (huB.trans (hvA.trans (feed_settle_sameProgress hf).toSameOutputs))

/-- An event that is no clock edge leaves the output side, and the sequencers too unless it is a START. -/
theorem hostEvent_sameOutputs {e : HostEvent} (he : e ≠ .edge) (h : hostEvent e s = .next t) :
    SameOutputs s t ∧ (t = s.jointStart ∨ SameProgress s t) := by
  have same {t : State} (h : SameOutputs s t) (hA : t.seqA = s.seqA) (hB : t.seqB = s.seqB) :
      SameOutputs s t ∧ (t = s.jointStart ∨ SameProgress s t) := ⟨h, .inr (.of_sequencers h hA hB)⟩
  rcases hostEvent_effect he h with ⟨_, _, rfl⟩ | ⟨-, _, _, -, -, hw⟩
  · exact same ⟨rfl, rfl, rfl, rfl, rfl⟩ rfl rfl
  · rcases hostWrite_effect hw with ⟨_, _, rfl⟩ | ⟨-, hcmd⟩ | ⟨-, _, _, _, _, _, _, rfl⟩ | ⟨-, rfl⟩
    · exact same ⟨rfl, rfl, rfl, rfl, rfl⟩ rfl rfl
    · rcases writeCmd_cases hcmd with ⟨-, rfl⟩ | ⟨-, rfl⟩ | ⟨-, rfl⟩ | ⟨-, rfl⟩ | ⟨-, rfl⟩ | ⟨-, rfl⟩
      case inr.inr.inl => exact ⟨⟨rfl, rfl, rfl, rfl, rfl⟩, .inl rfl⟩
      all_goals exact same ⟨rfl, rfl, rfl, rfl, rfl⟩ rfl rfl
    · exact same ⟨rfl, rfl, rfl, rfl, rfl⟩ rfl rfl
    · exact same ⟨rfl, rfl, rfl, rfl, rfl⟩ rfl rfl

/-- Settles O29: outside a micro-instruction that executes, every part of a step keeps the output side. -/
theorem linesHold : Obligations.LinesHold := by
  unfold Obligations.LinesHold
  intro s t h
  refine ⟨fun hedge => ?_, fun hedge hrst hidle => ?_⟩
  · rcases step_cases h with ⟨he, -⟩ | ⟨e, rest, -, he, -, hx⟩
    · exact absurd he hedge
    · exact (hostEvent_sameOutputs (s := { s with host := rest }) he hx).1.lines
  · rcases step_cases h with ⟨-, hc⟩ | ⟨_, _, -, -, hnot, -⟩
    · rcases clockEdge_cases hc with ⟨hr, -⟩ | ⟨-, hb⟩
      · cases hrst.symm.trans hr
      · refine (baseTick_sameOutputs (s := s.withHost s.host.tail) (fun X => ?_) hb).lines
        rw [countdown_withHost]
        exact hidle X
    · exact absurd hedge hnot

/-! ### The shift buffer and the phase of Program A -/

/-- What O60 says that every step keeps: the zero-filled buffer and the phase of the programs. -/
abbrev State.BufferAndPhase (s : State) : Prop := s.BufferZeroFilled ∧ s.ProgramPhase

theorem SameProgress.bufferAndPhase (h : SameProgress s t) (hs : s.BufferAndPhase) : t.BufferAndPhase := by
  obtain ⟨hpcA, hdlyA⟩ := h.place .A
  obtain ⟨-, hdlyB⟩ := h.place .B
  simp only [seq_A, seq_B] at hpcA hdlyA hdlyB
  simpa only [State.BufferAndPhase, State.BufferZeroFilled, State.ProgramPhase, h.osr, h.osrCnt, hpcA, hdlyA,
    hdlyB] using hs

theorem reload_osrCnt (s : State) : s.reload.osrCnt = 0 := by
  rcases reload_cases s with ⟨_, _, -, he⟩ | ⟨-, he⟩ <;> rw [he]

/-- A full buffer of 32 bits may hold any word. -/
theorem bufferZeroFilled_of_full (h : s.osrCnt = 0) : s.BufferZeroFilled := by
  rw [State.BufferZeroFilled, h]
  exact s.osr.isLt

/-- Each bit shifted out makes room for a zero at the top (R196). -/
theorem State.BufferZeroFilled.shiftOut (h : s.BufferZeroFilled) : s.shiftOut.BufferZeroFilled := by
  by_cases hempty : s.osrCnt = 32
  · rw [State.BufferZeroFilled, shiftOut_osr, h.osr_eq_zero hempty, shiftOut_osrCnt, hempty]
    decide
  · have hlt : s.osrCnt.val < 32 := Nat.lt_of_le_of_ne (Nat.le_of_lt_succ s.osrCnt.isLt) fun he => hempty (Fin.ext he)
    have hcnt : (countUp s.osrCnt).val = s.osrCnt.val + 1 := Nat.min_eq_left hlt
    have hpow : 2 ^ (32 - s.osrCnt.val) = 2 ^ (32 - (s.osrCnt.val + 1)) * 2 := by
      rw [← Nat.pow_succ]
      congr 1
      omega
    rw [State.BufferZeroFilled, hpow] at h
    rw [State.BufferZeroFilled, shiftOut_osr, shiftOut_osrCnt, hcnt, BitVec.toNat_ushiftRight,
      Nat.shiftRight_eq_div_pow, Nat.pow_one]
    exact Nat.div_lt_of_lt_mul (Nat.mul_comm _ _ ▸ h)

theorem bufferZeroFilled_retire (delay : BitVec 2) : (s.retire delay).BufferZeroFilled ↔ s.BufferZeroFilled := by
  simp [State.BufferZeroFilled]

/-- A REFILL leaves a buffer with a bit in it (R195). -/
theorem exec_refill_bufferZeroFilled {side : Bool} {delay : BitVec 2} (hs : s.BufferZeroFilled)
    (h : exec (.refill side delay) s = .next t) : t.BufferZeroFilled ∧ t.osrCnt ≠ 32 := by
  by_cases hempty : s.osrCnt = 32
  · cases (exec_refill_empty hempty side delay).symm.trans h
    rw [bufferZeroFilled_retire, retire_osrCnt, reload_osrCnt]
    exact ⟨bufferZeroFilled_of_full (reload_osrCnt _), by decide⟩
  · cases (exec_refill_full hempty side delay).symm.trans h
    rw [bufferZeroFilled_retire, retire_osrCnt]
    exact ⟨hs, hempty⟩

theorem exec_shift1_bufferZeroFilled {side : Bool} {delay : BitVec 2} (hs : s.BufferZeroFilled)
    (h : exec (.shift1 side delay) s = .next t) : t.BufferZeroFilled := by
  cases h
  rw [bufferZeroFilled_retire]
  exact State.BufferZeroFilled.shiftOut (s := s.driveBck side) hs

/-- Program B has no delays and does not touch the buffer (30_encoding.md R106). -/
theorem microStepIf_B_bufferAndPhase {b : Bool} (hrom : s.romB = romBInit) (hs : s.BufferAndPhase)
    (h : microStepIf b .B s = .next t) : t.BufferAndPhase := by
  cases b with
  | false => cases h; exact hs
  | true =>
    obtain ⟨hbuffer, hpc, hdlyA, hdlyB⟩ := hs
    cases (microStep_B_eq hrom hdlyB).symm.trans h
    exact ⟨hbuffer, hpc, hdlyA, rfl⟩

/-- Program A: a REFILL before each SHIFT1, each with one delay tick (30_encoding.md R106). -/
theorem microStepIf_A_bufferAndPhase {b : Bool} (hrom : s.romA = romAInit) (hs : s.BufferAndPhase)
    (h : microStepIf b .A s = .next t) : t.BufferAndPhase := by
  cases b with
  | false => cases h; exact hs
  | true =>
    obtain ⟨hbuffer, hpc, hdlyA, hdlyB⟩ := hs
    have hB : t.seqB = s.seqB := (microStepIf_frame h).other .B nofun
    rcases microStep_cases h with ⟨hd, rfl⟩ | ⟨-, i, hi, hf, hx⟩
    · have hle : (s.seqA.dly - 1).toNat ≤ 1 := by
        rw [seq_A] at hd
        bv_omega
      exact ⟨hbuffer, hpc, hle, hdlyB⟩
    · have hadv : t.seqA = s.seqA.advance i.delay := 
        exec_advances (s := { s with active := .A }) (X := .A) hf rfl hx
      have hpcA : t.seqA.pc = s.seqA.pc + 1 := by rw [hadv]; rfl
      have hdlyA : t.seqA.dly = i.delay := by rw [hadv]; rfl
      rw [rom_A, hrom] at hi
      have hi := eq_of_decodeUop_romA hi
      split at hi <;> subst hi
      case isTrue =>
        obtain ⟨hbuffer, hbit⟩ := exec_refill_bufferZeroFilled (s := { s with active := .A }) hbuffer hx
        exact ⟨hbuffer, fun _ => hbit, by rw [hdlyA]; exact Nat.le_refl 1, by rw [hB, hdlyB]⟩
      case isFalse hone =>
        have hbuffer := exec_shift1_bufferZeroFilled (s := { s with active := .A }) hbuffer hx
        have hzero : s.seqA.pc + 1 ≠ 1 := by
          rw [seq_A] at hone
          bv_omega
        exact ⟨hbuffer, fun he => absurd (hpcA.symm.trans he) hzero, by rw [hdlyA]; exact Nat.le_refl 1,
          by rw [hB, hdlyB]⟩

theorem State.Inv.baseTick_bufferAndPhase (h : s.Inv) (hs : s.BufferAndPhase) (ht : baseTick s = .next t) :
    t.BufferAndPhase := by
  obtain ⟨u, v, hu, hv, hf⟩ := baseTick_cases ht
  obtain ⟨hromA, hromB⟩ := h.countdown.romsFixed
  obtain ⟨-, hfrontA, hfrontB, -⟩ := sameControl_tickFront s
  obtain ⟨-, huA, -, -⟩ := (microStepIf_frame hu).control
  have hfront := (tickFront_sameProgress s).bufferAndPhase hs
  have huPhase := microStepIf_B_bufferAndPhase (hfrontB.trans hromB) hfront hu
  have hvPhase := microStepIf_A_bufferAndPhase (huA.trans (hfrontA.trans hromA)) huPhase hv
  exact (feed_settle_sameProgress hf).bufferAndPhase hvPhase

/-- Settles O60: only REFILL and SHIFT1 touch the buffer, and Program A alternates them; START and reset
begin at REFILL. -/
theorem stepKeepsBufferAndPhase : Obligations.StepKeepsBufferAndPhase := by
  unfold Obligations.StepKeepsBufferAndPhase
  intro s t h hbuffer hphase ht
  rcases step_cases ht with ⟨-, hc⟩ | ⟨e, rest, -, he, -, hx⟩
  · rcases clockEdge_cases hc with ⟨-, rfl⟩ | ⟨-, hb⟩
    · exact ⟨Nat.zero_lt_one, nofun, Nat.zero_le 1, rfl⟩
    · exact (h.setOutside s.host.tail s.rst s.readData s.tblIndex s.encIn).baseTick_bufferAndPhase ⟨hbuffer, hphase⟩ hb
  · rcases (hostEvent_sameOutputs (s := { s with host := rest }) he hx).2 with rfl | hsame
    · exact ⟨hbuffer, nofun, Nat.zero_le 1, rfl⟩
    · exact hsame.bufferAndPhase ⟨hbuffer, hphase⟩

end Sys2Proof.Machine
end

section
/-! PROOF. The clock dividers (43_sequencers.md R191, R192): O30, O31. -/
namespace Sys2Proof.Machine
variable {s : State} {X : SeqId} {d acc : BitVec 24}

/-! ### One tick -/

theorem dividerFires_iff : dividerFires d acc = true ↔ d.toNat ≤ acc.toNat + 256 := decide_eq_true_iff

/-- The value that START loads is one full step short of the divisor. -/
theorem toNat_startAcc (hd : 256 ≤ d.toNat) : (d - 256).toNat = d.toNat - 256 := by bv_omega

theorem startAcc_lt (hd : 256 ≤ d.toNat) : (d - 256).toNat < d.toNat := by
  rw [toNat_startAcc hd]
  omega

/-- Base tick t0 fires every divider and leaves it at 0 (R191). -/
theorem divider_first_tick (hd : 256 ≤ d.toNat) : dividerFires d (d - 256) = true ∧ dividerNext d (d - 256) = 0 := by
  have hfires : d.toNat ≤ (d - 256).toNat + 256 := by
    rw [toNat_startAcc hd]
    omega
  refine ⟨dividerFires_iff.2 hfires, BitVec.eq_of_toNat_eq ?_⟩
  rw [toNat_dividerNext (startAcc_lt hd), if_pos hfires, toNat_startAcc hd]
  exact Nat.sub_eq_zero_of_le (by omega)

theorem fires_of_run (hrun : (s.seq X).run = true) : s.fires X = dividerFires (s.d256 X) (s.seq X).acc := by
  rw [State.fires, hrun, Bool.true_and]

theorem divide_acc (hrun : (s.seq X).run = true) :
    ((s.divide X).seq X).acc = dividerNext (s.d256 X) (s.seq X).acc := by
  rw [State.divide, if_pos hrun, seq_setSeq_same]

/-- Settles O30: `toNat_dividerNext` under a legal divisor, and `divider_first_tick` from START's value. -/
theorem dividerTick : Obligations.DividerTick := by
  unfold Obligations.DividerTick
  refine ⟨fun s t hc h => ?_, fun s X hrun hd hacc => ?_⟩
  · rw [exec, execStart, hc] at h
    cases h
    exact ⟨rfl, rfl⟩
  · rw [fires_of_run hrun, divide_acc hrun]
    exact ⟨dividerFires_iff, toNat_dividerNext hacc, dividerNext_lt hd hacc, fun hstart => hstart ▸ divider_first_tick hd⟩

/-! ### Any number of ticks -/

/-- `k` base ticks add 256 each to START's value, and each of the `m` that fired took one divisor off. -/
theorem dividerAfter_toNat (hd : 256 ≤ d.toNat) (k : Nat) :
    (dividerAfter d k).toNat < d.toNat ∧
      ∃ m, (dividerAfter d k).toNat + 256 + m * d.toNat = d.toNat + 256 * k := by
  induction k with
  | zero =>
    refine ⟨startAcc_lt hd, 0, ?_⟩
    rw [dividerAfter, toNat_startAcc hd]
    omega
  | succ k ih =>
    obtain ⟨hlt, m, hm⟩ := ih
    refine ⟨dividerNext_lt hd hlt, ?_⟩
    rw [dividerAfter, toNat_dividerNext hlt]
    by_cases hfires : d.toNat ≤ (dividerAfter d k).toNat + 256
    · refine ⟨m + 1, ?_⟩
      rw [if_pos hfires, Nat.succ_mul]
      omega
    · refine ⟨m, ?_⟩
      rw [if_neg hfires]
      omega

/-- A tick is ceil(n · D256 / 256) exactly when 256 of it reach n · D256 and 256 of the tick before do not. -/
theorem eq_ceil_iff (k a : Nat) : k = (a + 255) / 256 ↔ a ≤ 256 * k ∧ 256 * k < a + 256 := by omega

/-- Settles O31: after `m` firings the divider fires in the tick ceil(m · D256 / 256) and in no other before the next. -/
theorem dividerClosedForm : Obligations.DividerClosedForm := by
  unfold Obligations.DividerClosedForm
  intro d hd k
  obtain ⟨hlt, m, hm⟩ := dividerAfter_toNat hd k
  simp only [dividerFires_iff, eq_ceil_iff]
  constructor
  · intro hfires
    exact ⟨m, by omega, by omega⟩
  · rintro ⟨n, hreached, hnot⟩
    have hmn : m ≤ n := Nat.le_of_not_lt fun hgt => by
      have hmul : (n + 1) * d.toNat ≤ m * d.toNat := Nat.mul_le_mul_right _ hgt
      rw [Nat.succ_mul] at hmul
      omega
    have hmul : m * d.toNat ≤ n * d.toNat := Nat.mul_le_mul_right _ hmn
    omega

end Sys2Proof.Machine
end

section
/-! PROOF. The timelines of the two programs (43_sequencers.md R197, R198), and the first base tick of both (R199,
R201): O35, O36, O37. -/
namespace Sys2Proof.Machine
variable {s t : State}

/-! ### Program A in the ticks that are no delay ticks (R197) -/

theorem exec_refill_effect (side : Bool) (delay : BitVec 2) (s : State) :
    ∃ t, exec (.refill side delay) s = .next t ∧ t.bck = side ∧ t.data = s.data ∧ t.lrck = s.lrck ∧
      t.osrCnt = if s.osrCnt = 32 then 0 else s.osrCnt := by
  by_cases hempty : s.osrCnt = 32
  · refine ⟨_, exec_refill_empty hempty side delay, ?_⟩
    rw [if_pos hempty, retire_bck, retire_data, retire_lrck, retire_osrCnt]
    rcases reload_cases (s.driveBck side) with ⟨_, _, -, he⟩ | ⟨-, he⟩ <;> rw [he] <;> exact ⟨rfl, rfl, rfl, rfl⟩
  · refine ⟨_, exec_refill_full hempty side delay, ?_⟩
    simp [hempty]

theorem microStep_A_refill (hrom : s.romA = romAInit) (hd : s.seqA.dly = 0) (hpc : s.seqA.pc = 0) :
    ∃ t, microStep .A s = .next t ∧ t.seqA = s.seqA.advance 1 ∧ t.bck = false ∧ t.data = s.data ∧ t.lrck = s.lrck ∧
      t.osrCnt = if s.osrCnt = 32 then 0 else s.osrCnt := by
  have hi : decodeUop (romFetch (s.rom .A) (s.seq .A).pc) = .ok (.refill false 1) := by
    rw [rom_A, hrom, seq_A, decodeUop_romA, if_pos hpc]
  obtain ⟨t, ht, heffect⟩ := exec_refill_effect false 1 { s with active := .A }
  exact ⟨t, (microStep_exec (X := .A) hd hi).trans ht, exec_advances (s := { s with active := .A }) (X := .A) rfl rfl ht,
    heffect⟩

theorem microStep_A_shift1 (hrom : s.romA = romAInit) (hd : s.seqA.dly = 0) (hpc : s.seqA.pc ≠ 0) :
    ∃ t, microStep .A s = .next t ∧ t.seqA = s.seqA.advance 1 ∧ t.bck = true ∧ t.osrCnt = countUp s.osrCnt := by
  have hi : decodeUop (romFetch (s.rom .A) (s.seq .A).pc) = .ok (.shift1 true 1) := by
    rw [rom_A, hrom, seq_A, decodeUop_romA, if_neg hpc]
  exact ⟨_, microStep_exec (X := .A) hd hi, rfl, rfl, rfl⟩

/-! ### Any number of A-ticks -/

/-- Program A after `n` A-ticks from its start: 4 of them make a bit, and 128 a slot (R197). -/
structure AtTickA (n : Nat) (s : State) : Prop where
  rom : s.romA = romAInit
  pc : s.seqA.pc.toNat = (n + 1) / 2 % 2
  dly : s.seqA.dly.toNat = n % 2
  bck : 1 ≤ n → s.bck = decide ((n + 1) / 2 % 2 = 0)
  osrCnt : s.osrCnt.val = ((n + 127) % 128 + 2) / 4

theorem toNat_pc_next (pc : BitVec 1) : (pc + 1).toNat = (pc.toNat + 1) % 2 := BitVec.toNat_add pc 1

/-- An A-tick that is no delay tick goes on to the other word and waits one tick there. -/
theorem AtTickA.of_advance {n : Nat} (h : AtTickA n s) (hn : n % 2 = 0) (ht : microStep .A s = .next t)
    (hseq : t.seqA = s.seqA.advance 1) (hbck : t.bck = decide ((n + 2) / 2 % 2 = 0))
    (hcnt : t.osrCnt.val = ((n + 128) % 128 + 2) / 4) : AtTickA (n + 1) t where
  rom := by
    obtain ⟨-, hrom, -⟩ := (microStep_frame ht).control
    exact hrom.trans h.rom
  pc := by
    rw [hseq, advance_pc, toNat_pc_next, h.pc]
    omega
  dly := by
    rw [hseq, advance_dly, Nat.add_mod, hn]
    rfl
  bck := fun _ => hbck
  osrCnt := hcnt

/-- One more A-tick: a REFILL, a SHIFT1, or the delay tick of either. -/
theorem AtTickA.next {n : Nat} (h : AtTickA n s) : ∃ t, microStep .A s = .next t ∧ AtTickA (n + 1) t := by
  have hpc := h.pc
  have hdly := h.dly
  have hcnt := h.osrCnt
  rcases Nat.mod_two_eq_zero_or_one n with hn | hn
  · have hd : s.seqA.dly = 0 := BitVec.eq_of_toNat_eq (hdly.trans hn)
    by_cases hpc0 : s.seqA.pc = 0
    · obtain ⟨t, ht, hseq, hlow, -, -, hrefill⟩ := microStep_A_refill h.rom hd hpc0
      have hquarter : (n + 1) / 2 % 2 = 0 := by rw [← hpc, hpc0]; rfl
      refine ⟨t, ht, h.of_advance hn ht hseq (hlow.trans (decide_eq_false (by omega)).symm) ?_⟩
      rw [hrefill]
      split
      case isTrue hempty =>
        have hlast : 32 = ((n + 127) % 128 + 2) / 4 := (congrArg Fin.val hempty).symm.trans hcnt
        have hfirst : 0 = ((n + 128) % 128 + 2) / 4 := by omega
        exact hfirst
      case isFalse hbit =>
        have hne : s.osrCnt.val ≠ 32 := fun he => hbit (Fin.ext he)
        omega
    · obtain ⟨t, ht, hseq, hhigh, hshift⟩ := microStep_A_shift1 h.rom hd hpc0
      have hquarter : (n + 1) / 2 % 2 ≠ 0 := fun he => hpc0 (BitVec.eq_of_toNat_eq (hpc.trans he))
      refine ⟨t, ht, h.of_advance hn ht hseq (hhigh.trans (decide_eq_true (by omega)).symm) ?_⟩
      rw [hshift, countUp]
      simp only
      omega
  · have hd : s.seqA.dly ≠ 0 := fun he => by
      rw [he, hn] at hdly
      cases hdly
    refine ⟨_, microStep_delay (X := .A) hd, h.rom, ?_, ?_, fun _ => ?_, ?_⟩
    · exact hpc.trans (by omega)
    · have hone : s.seqA.dly = 1 := BitVec.eq_of_toNat_eq (hdly.trans hn)
      have hlast : (s.seqA.dly - 1).toNat = 0 := by rw [hone]; rfl
      exact hlast.trans (by omega)
    · exact (h.bck (by omega)).trans (decide_eq_decide.2 (by omega))
    · exact hcnt.trans (by omega)

/-- Settles O36: A-tick by A-tick, from the start of the program with an empty buffer. -/
theorem programATimeline : Obligations.ProgramATimeline := by
  unfold Obligations.ProgramATimeline
  intro s n hrom hpc hdly hempty
  have hticks : ∃ t, microSteps .A n s = .next t ∧ AtTickA n t := by
    induction n with
    | zero => exact ⟨s, rfl, hrom, by rw [hpc]; rfl, by rw [hdly]; rfl, nofun, by rw [hempty]; rfl⟩
    | succ n ih =>
      obtain ⟨t, ht, hat⟩ := ih
      obtain ⟨u, hu, hnext⟩ := hat.next
      exact ⟨u, by rw [microSteps, ht]; exact hu, hnext⟩
  obtain ⟨t, ht, hat⟩ := hticks
  exact ⟨t, ht, hat.pc, hat.dly, fun hn => ⟨hat.bck hn, hat.osrCnt.trans (by omega)⟩⟩

/-! ### Any number of B-ticks (R198) -/

/-- Settles O37: B-tick by B-tick, each a SETCLK without a delay. -/
theorem programBTimeline : Obligations.ProgramBTimeline := by
  unfold Obligations.ProgramBTimeline
  intro s n hrom hpc hdly
  have hticks : ∃ t, microSteps .B n s = .next t ∧
      t = { s with active := t.active, lrck := t.lrck, seqB := t.seqB } ∧
      t.seqB.pc.toNat = n % 2 ∧ t.seqB.dly = 0 ∧ (1 ≤ n → t.lrck = decide (n % 2 = 1)) := by
    induction n with
    | zero => exact ⟨s, rfl, rfl, by rw [hpc]; rfl, hdly, nofun⟩
    | succ n ih =>
      obtain ⟨t, ht, hframe, htpc, htdly, -⟩ := ih
      have hromB : t.romB = romBInit := by rw [hframe]; exact hrom
      refine ⟨_, by rw [microSteps, ht]; exact microStep_B_eq hromB htdly, ?_, ?_, rfl, fun _ => ?_⟩
      · simp only
        rw [hframe]
      · rw [advance_pc, toNat_pc_next, htpc]
        omega
      · have hzero : t.seqB.pc = 0 ↔ n % 2 = 0 := htpc ▸ BitVec.toNat_eq
        rw [Bool.eq_iff_iff, beq_iff_eq, decide_eq_true_iff, hzero]
        omega
  obtain ⟨t, ht, hframe, htpc, htdly, htlrck⟩ := hticks
  refine ⟨t, ht, htpc, htdly, htlrck, ?_⟩
  rw [hframe]
  exact ⟨rfl, rfl, rfl, rfl, rfl, rfl⟩

/-! ### Base tick t0 of both programs -/

/-- A base tick in which both programs, at their first word, are due: SETCLK raises LRCK, then REFILL lowers BCK
(R199). -/
theorem setclk_then_refill {v w : State} (hv : microStep .B s = .next v) (hw : microStep .A v = .next w)
    (hromA : s.romA = romAInit) (hromB : s.romB = romBInit) (hA : s.seqA.pc = 0 ∧ s.seqA.dly = 0)
    (hB : s.seqB.pc = 0 ∧ s.seqB.dly = 0) :
    w.lrck = true ∧ w.bck = false ∧ w.data = s.data ∧ w.seqA.acc = s.seqA.acc ∧ w.seqB.acc = s.seqB.acc := by
  obtain ⟨⟨-, hvA⟩, -, hvB⟩ := (microStep_frame hv).sequencers
  obtain ⟨⟨-, hwA⟩, -, hwB⟩ := (microStep_frame hw).sequencers
  cases (microStep_B_eq hromB hB.2).symm.trans hv
  obtain ⟨x, hx, -, hlow, hdata, hlrck, -⟩ :=
    microStep_A_refill (s := { s with active := .B, lrck := s.seqB.pc == 0, seqB := s.seqB.advance 0 }) hromA hA.2 hA.1
  cases hx.symm.trans hw
  refine ⟨hlrck.trans ?_, hlow, hdata, hwA.trans hvA, hwB.trans hvB⟩
  rw [hB.1]
  rfl

/-- Settles O35: both dividers fire in t0, on SETCLK at index 0 of Program B and REFILL at index 0 of Program A. -/
theorem firstTransitionsInOneTick : Obligations.FirstTransitionsInOneTick := by
  unfold Obligations.FirstTransitionsInOneTick
  intro s h hc
  have hinv := h.jointStart hc
  obtain ⟨u, hu⟩ := hinv.baseTick_answers
  obtain ⟨hdata, hbck, hlrck, -⟩ := h.beforeStart (by rw [hc]; rfl)
  obtain ⟨-, -, hlegalA, hlegalB⟩ := h.preparedSizes (by rw [hc]; rfl)
  obtain ⟨hfiresA, hzeroA⟩ := divider_first_tick hlegalA
  obtain ⟨hfiresB, hzeroB⟩ := divider_first_tick hlegalB
  have hcount : s.jointStart.countdown = s.jointStart := countdown_of_not_busy nofun
  have hA : s.jointStart.countdown.fires .A = true := by rw [hcount]; exact hfiresA
  have hB : s.jointStart.countdown.fires .B = true := by rw [hcount]; exact hfiresB
  obtain ⟨v, w, hv, hw, hfeed⟩ := baseTick_cases hu
  rw [hB, microStepIf_true, tickFront_running (s := s.jointStart) nofun rfl rfl] at hv
  rw [hA, microStepIf_true] at hw
  obtain ⟨hhigh, hlow, hsame, haccA, haccB⟩ :=
    setclk_then_refill hv hw hinv.romsFixed.1 hinv.romsFixed.2 ⟨rfl, rfl⟩ ⟨rfl, rfl⟩
  obtain ⟨_, _, _, _, rfl, -⟩ := feed_settle_frame hfeed
  exact ⟨s.jointStart, _, by rw [exec, execStart, hc], hu, hlrck, hhigh, hbck, hlow, hdata, hsame.trans hdata,
    haccA.trans hzeroA, haccB.trans hzeroB⟩

end Sys2Proof.Machine
end

section
/-! PROOF. A base tick runs `exec` of the words that the sequencers fetch (43_sequencers.md R193, R204), and what it makes of
the clocks follows from the clocks alone (R205): O6, O38. -/
namespace Sys2Proof.Machine
variable {s s' t t' u : State} {X : SeqId} {i k : Instr}

/-! ### The words of a base tick -/

/-- A clock edge outside reset is a base tick on the rest of the schedule. -/
theorem step_edge (hedge : s.edgeNext) (hrst : s.rst = false) : step s = baseTick { s with host := s.host.tail } := by
  have htick {r : State} (h : r.rst = false) : clockEdge r = baseTick r := if_neg (h ▸ Bool.false_ne_true)
  rcases hedge with hhost | hhead
  · have hsame : ({ s with host := s.host.tail } : State) = s := by cases s; simp_all
    rw [hsame, step, hhost]
    exact htick hrst
  · obtain ⟨rest, hhost⟩ : ∃ rest, s.host = .edge :: rest := List.head?_eq_some_iff.1 hhead
    rw [step_event hhost, hhost]
    exact htick hrst

theorem baseTick_of_not_busy (hc : s.ctl ≠ .busy) :
    baseTick s = andThen (microStepIf (s.fires .B) .B s.tickFront) fun t =>
      andThen (microStepIf (s.fires .A) .A t) fun t => feed t.settle := by
  simp only [baseTick, countdown_of_not_busy hc]

/-- Where the dividers, and a micro-step of the other sequencer after them, have left X's place and store as they were, a
micro-step of X past its delay executes the word at the pc that X had before the tick. -/
theorem microStep_in_tick (hc : s.ctl ≠ .busy) (hseq : t.seq X = s.tickFront.seq X) (hrom : t.rom X = s.tickFront.rom X)
    (hd : (s.seq X).dly = 0) (hi : decodeUop (romFetch (s.rom X) (s.seq X).pc) = .ok i) :
    microStep X t = exec i { t with active := X } := by
  obtain ⟨hpc, hdly⟩ := (tickFront_sameProgress s).place X
  have hfront : s.tickFront.rom X = s.rom X := by
    rw [tickFront_eq, countdown_of_not_busy hc]
    cases X <;> rfl
  refine microStep_exec (by rw [hseq, hdly, hd]) ?_
  rw [hseq, hrom, hpc, hfront, hi]

theorem baseTick_one_word (hc : s.ctl ≠ .busy) (hX : s.fires X = true) (hother : ∀ Y, Y ≠ X → s.fires Y = false)
    (hd : (s.seq X).dly = 0) (hi : decodeUop (romFetch (s.rom X) (s.seq X).pc) = .ok i) :
    baseTick s = andThen (exec i { s.tickFront with active := X }) fun t => feed t.settle := by
  rw [baseTick_of_not_busy hc]
  cases X with
  | A => rw [hX, hother .B nofun, microStepIf_false, andThen_next, microStepIf_true, microStep_in_tick hc rfl rfl hd hi]
  | B =>
    rw [hX, hother .A nofun, microStepIf_true, microStep_in_tick hc rfl rfl hd hi]
    rfl

theorem baseTick_two_words (hc : s.ctl ≠ .busy) (hA : s.fires .A = true) (hB : s.fires .B = true)
    (hdA : s.seqA.dly = 0) (hdB : s.seqB.dly = 0) (hi : decodeUop (romFetch s.romB s.seqB.pc) = .ok i)
    (hk : decodeUop (romFetch s.romA s.seqA.pc) = .ok k) :
    baseTick s = andThen (exec i { s.tickFront with active := .B }) fun t =>
      andThen (exec k { t with active := .A }) fun t => feed t.settle := by
  obtain ⟨t, ht⟩ := exec_answers i { s.tickFront with active := .B }
  have hframe := exec_microFrame (format_of_decodeUop hi) ht
  obtain ⟨-, hromA, -⟩ := hframe.control
  have hstepB := microStep_in_tick (X := .B) hc rfl rfl hdB hi
  have hstepA := microStep_in_tick (X := .A) (t := t) hc (hframe.other .A nofun) hromA hdA hk
  rw [baseTick_of_not_busy hc, hA, hB, microStepIf_true, hstepB, ht, andThen_next, andThen_next, microStepIf_true, hstepA]

/-- Settles O6: each firing sequencer past its delay executes the word at its pc, SEQ_B first. -/
theorem stepRunsMicroInstruction : Obligations.StepRunsMicroInstruction := by
  unfold Obligations.StepRunsMicroInstruction
  intro s i k hrst hedge hc
  rw [step_edge hedge hrst]
  refine ⟨fun hA hB hd hi => ?_, fun hA hB hd hi => ?_, fun hA hB hdA hdB hi hk => ?_⟩
  · exact baseTick_one_word (X := .A) hc hA (fun | .A, hne => absurd rfl hne | .B, _ => hB) hd hi
  · exact baseTick_one_word (X := .B) hc hB (fun | .A, _ => hA | .B, hne => absurd rfl hne) hd hi
  · exact baseTick_two_words hc hA hB hdA hdB hi hk

/-! ### The clocks of a base tick -/

theorem State.SameClocks.symm (h : s.SameClocks t) : t.SameClocks s := by
  obtain ⟨hA, hB, hdivA, hdivB, hromA, hromB, hbck, hlrck⟩ := h
  exact ⟨hA.symm, hB.symm, hdivA.symm, hdivB.symm, hromA.symm, hromB.symm, hbck.symm, hlrck.symm⟩

theorem State.SameClocks.trans (h : s.SameClocks t) (h' : t.SameClocks u) : s.SameClocks u := by
  obtain ⟨hA, hB, hdivA, hdivB, hromA, hromB, hbck, hlrck⟩ := h
  obtain ⟨hA', hB', hdivA', hdivB', hromA', hromB', hbck', hlrck'⟩ := h'
  exact ⟨hA'.trans hA, hB'.trans hB, hdivA'.trans hdivA, hdivB'.trans hdivB, hromA'.trans hromA, hromB'.trans hromB,
    hbck'.trans hbck, hlrck'.trans hlrck⟩

theorem State.SameClocks.setSeq (h : s.SameClocks t) (X : SeqId) (q : Sequencer) :
    (s.setSeq X q).SameClocks (t.setSeq X q) := by
  obtain ⟨hA, hB, hrest⟩ := h
  cases X
  · exact ⟨rfl, hB, hrest⟩
  · exact ⟨hA, rfl, hrest⟩

theorem State.SameClocks.retire (h : s.SameClocks t) (ha : t.active = s.active) (delay : BitVec 2) :
    (s.retire delay).SameClocks (t.retire delay) := by
  rw [State.retire, State.retire, ha, h.seq_eq]
  exact h.setSeq _ _

theorem State.SameClocks.drivenBy (h : s.SameClocks t) (ha : t.active = s.active) (i : Instr) :
    (s.drivenBy i).SameClocks (t.drivenBy i) := by
  obtain ⟨hA, hB, hdivA, hdivB, hromA, hromB, hbck, hlrck⟩ := h
  cases i
  case setclk side delay =>
    simp only [State.drivenBy, ha]
    cases s.active
    · exact ⟨hA, hB, hdivA, hdivB, hromA, hromB, rfl, hlrck⟩
    · exact ⟨hA, hB, hdivA, hdivB, hromA, hromB, hbck, rfl⟩
  case refill side delay => exact ⟨hA, hB, hdivA, hdivB, hromA, hromB, rfl, hlrck⟩
  case shift1 side delay => exact ⟨hA, hB, hdivA, hdivB, hromA, hromB, rfl, hlrck⟩
  all_goals exact ⟨hA, hB, hdivA, hdivB, hromA, hromB, hbck, hlrck⟩

/-- What a micro-instruction makes of the clocks does not depend on the buffer, TXQ or STATE. -/
theorem exec_sameClocks (hf : i.format = .uop) (h : s.SameClocks s') (ha : s'.active = s.active)
    (hx : exec i s = .next t) (hx' : exec i s' = .next t') : t.SameClocks t' := by
  obtain ⟨r, hr, hra, hrc⟩ := exec_eq_retire hf s
  obtain ⟨r', hr', hra', hrc'⟩ := exec_eq_retire hf s'
  cases hr.symm.trans hx
  cases hr'.symm.trans hx'
  have hclocks : r.SameClocks r' := hrc.symm.trans ((h.drivenBy ha i).trans hrc')
  exact hclocks.retire (hra'.trans (ha.trans hra.symm)) _

theorem State.SameClocks.rom_eq (h : s.SameClocks t) (X : SeqId) : t.rom X = s.rom X := by
  obtain ⟨-, -, -, -, hromA, hromB, -, -⟩ := h
  cases X
  · exact hromA
  · exact hromB

theorem State.SameClocks.d256_eq (h : s.SameClocks t) (X : SeqId) : t.d256 X = s.d256 X := by
  obtain ⟨-, -, hdivA, hdivB, -, -, -, -⟩ := h
  cases X
  · exact hdivA
  · exact hdivB

theorem microStep_sameClocks (h : s.SameClocks s') (ht : microStep X s = .next t) (ht' : microStep X s' = .next t') :
    t.SameClocks t' := by
  have hseq := h.seq_eq X
  rcases microStep_cases ht with ⟨hd, rfl⟩ | ⟨hd, i, hi, hf, hx⟩
  · cases (microStep_delay (hseq ▸ hd)).symm.trans ht'
    rw [hseq]
    exact h.setSeq X _
  · have hx' := (microStep_exec (hseq ▸ hd) (by rw [h.rom_eq X, hseq, hi])).symm.trans ht'
    exact exec_sameClocks (s := { s with active := X }) (s' := { s' with active := X }) hf h rfl hx hx'

theorem microStepIf_sameClocks {b : Bool} (h : s.SameClocks s') (ht : microStepIf b X s = .next t)
    (ht' : microStepIf b X s' = .next t') : t.SameClocks t' := by
  cases b with
  | false => cases ht; cases ht'; exact h
  | true => exact microStep_sameClocks h ht ht'

theorem State.SameClocks.fires_eq (h : s.SameClocks t) (X : SeqId) : t.fires X = s.fires X := by
  rw [State.fires, State.fires, h.seq_eq X, h.d256_eq X]

theorem State.SameClocks.divide (h : s.SameClocks t) (X : SeqId) : (s.divide X).SameClocks (t.divide X) := by
  rw [State.divide, State.divide, h.seq_eq X, h.d256_eq X]
  split
  · exact h.setSeq X _
  · exact h

theorem feed_settle_sameClocks (h : feed s.settle = .next t) : s.SameClocks t := by
  obtain ⟨_, _, _, _, rfl, -⟩ := feed_settle_frame h
  exact ⟨rfl, rfl, rfl, rfl, rfl, rfl, rfl, rfl⟩

/-- Settles O38: each part of a base tick after the countdown makes the clocks of the clocks. -/
theorem clockWaveformsIndependent : Obligations.ClockWaveformsIndependent := by
  unfold Obligations.ClockWaveformsIndependent
  intro s s' t t' hc hc' h ht ht'
  obtain ⟨u, v, hu, hv, hf⟩ := baseTick_cases ht
  obtain ⟨u', v', hu', hv', hf'⟩ := baseTick_cases ht'
  rw [State.tickFront] at hu hu'
  rw [countdown_of_not_busy hc] at hu hv
  rw [countdown_of_not_busy hc', h.fires_eq] at hu' hv'
  have huClocks := microStepIf_sameClocks ((h.divide .A).divide .B) hu hu'
  have hvClocks := microStepIf_sameClocks huClocks hv hv'
  exact (feed_settle_sameClocks hf).symm.trans (hvClocks.trans (feed_settle_sameClocks hf'))

end Sys2Proof.Machine
end

section
/-! PROOF. The host commands and the configuration writes (44_transmitter.md R235, R237, R240, R241): O9, O11, O12, O14. -/
namespace Sys2Proof.Machine
variable {s : State} {w : Word} {i : Instr}

/-! ### Writes to CMD -/

/-- A word that decodes, written to CMD, is its command (10_state.md R46). -/
theorem hostWrite_cmd (h : decodeHcmd w = .ok i) (s : State) : hostWrite 0x18 w s = exec i s := by
  calc hostWrite 0x18 w s = writeCmd w s := hostWrite_offset .cmd w s
    _ = exec i s := by rw [writeCmd, decodeBytes_wordBytes, h]

theorem hostWrite_cmd_reserved (h : 3 ≤ (hcmdOpcode w).toNat) (s : State) :
    hostWrite 0x18 w s = .next (reservedCommand (hcmdOpcode w) s) := by
  calc hostWrite 0x18 w s = writeCmd w s := hostWrite_offset .cmd w s
    _ = .next (reservedCommand (hcmdOpcode w) s) := by rw [writeCmd, decodeBytes_wordBytes, decodeHcmd_reserved h]

theorem step_write (hrst : s.rst = false) {offset : Nat} {rest : List HostEvent}
    (hhost : s.host = .write 32 offset w :: rest) (ha : admitted 32 offset = true) :
    step s = hostWrite offset w { s with host := rest } :=
  (step_event hhost).trans (hostAccess_of_admitted (s := { s with host := rest }) hrst ha)

/-! ### The commands -/

theorem exec_nop_accepted (ha : s.ctl.accepts = true) : exec .nop s = .next s := if_pos ha

theorem exec_nop_ignored (ha : s.ctl.accepts ≠ true) : exec .nop s = .next s.setIgn := if_neg ha

/-- Settles O9: NOP asks only whether STATE takes commands. -/
theorem nopEffect : Obligations.NopEffect := by
  unfold Obligations.NopEffect
  intro s
  rw [← Ctl.accepts_iff]
  exact ⟨fun w hop => hostWrite_cmd (decodeHcmd_nop hop) s, exec_nop_accepted, exec_nop_ignored⟩

theorem exec_start_ready (hc : s.ctl = .ready) : exec .start s = .next s.jointStart := by
  simp only [exec, execStart, hc]

theorem exec_start_idle (hc : s.ctl = .idle) : exec .start s = .next (s.raiseFault .badSeq 0x2) := by
  simp only [exec, execStart, hc]

theorem exec_start_ignored (hready : s.ctl ≠ .ready) (hidle : s.ctl ≠ .idle) : exec .start s = .next s.setIgn := by
  simp only [exec, execStart]
  split
  next hc => exact absurd hc hready
  next hc => exact absurd hc hidle
  all_goals rfl

/-- Settles O11: one equation of START for each way it can go, with the queue that no FEEDER has filled yet. -/
theorem startEffect : Obligations.StartEffect := by
  unfold Obligations.StartEffect
  intro s
  exact ⟨fun w hop => hostWrite_cmd (decodeHcmd_start hop) s, fun h hc => h.queue_empty_of_stopped (by rw [hc]; rfl),
    exec_start_ready, exec_start_idle, exec_start_ignored⟩

theorem reservedCommand_accepted (ha : s.ctl.accepts = true) (opcode : BitVec 4) :
    reservedCommand opcode s = s.raiseFault .badCmd (opcode.setWidth 32) := if_pos ha

theorem reservedCommand_ignored (ha : s.ctl.accepts ≠ true) (opcode : BitVec 4) : reservedCommand opcode s = s.setIgn :=
  if_neg ha

/-- Settles O12: the write reaches `reservedCommand` with the opcode field alone. -/
theorem reservedCommandEffect : Obligations.ReservedCommandEffect := by
  unfold Obligations.ReservedCommandEffect
  intro s w rest hrst hhost hop
  rw [← Ctl.accepts_iff, step_write hrst hhost rfl, hostWrite_cmd_reserved hop]
  exact ⟨fun ha => congrArg _ (reservedCommand_accepted (s := { s with host := rest }) ha _),
    fun ha => congrArg _ (reservedCommand_ignored (s := { s with host := rest }) ha _)⟩

/-! ### Configuration writes -/

theorem configWrite_ready {store : State → State} (hc : s.ctl = .ready) :
    configWrite store s = { store s with ctl := .idle, valid := false } := by
  simp only [configWrite, hc]

/-- Settles O14: each of the six registers is written through `configWrite`; where that ignores the write, O13 says so. -/
theorem configurationWrite : Obligations.ConfigurationWrite := by
  unfold Obligations.ConfigurationWrite
  intro s w
  have hctrl : w.setWidth 4 = w.extractLsb' 0 4 := BitVec.setWidth_eq_extractLsb' (by decide)
  rw [← hctrl]
  refine ⟨fun hc => ?_, fun hc => ?_, fun hidle hready offset ho => ?_⟩
  · have stored (store : State → State) : Host.Outcome.next (configWrite store s) = (.next (store s) : Result) :=
      congrArg _ (configWrite_idle hc)
    exact ⟨stored _, stored _, stored _, stored _, stored _, stored _⟩
  · have stored (store : State → State) : Host.Outcome.next (configWrite store s) =
        (.next { store s with ctl := .idle, valid := false } : Result) := congrArg _ (configWrite_ready hc)
    exact ⟨stored _, stored _, stored _, stored _, stored _, stored _⟩
  · have hregs : ∀ offset ∈ [0x00, 0x04, 0x08, 0x0C, 0x10, 0x14],
        ∃ r ∈ [Reg.ctrl, .baseClk, .toneFreq, .amplitude, .ampCeiling, .tableSize, .cmd], r.offset = offset := by decide
    obtain ⟨r, hr, rfl⟩ := hregs offset ho
    exact ignFlag.1 s w r hr hidle hready

end Sys2Proof.Machine
end

section
/-! PROOF. PREPARE's acceptance and the ticks of BUSY (44_transmitter.md R238, 43_sequencers.md R204): O10. -/
namespace Sys2Proof.Machine
variable {s : State}

theorem exec_prepare_accepted (ha : s.ctl.accepts = true) : exec .prepare s = .next s.acceptPrepare := if_pos ha

theorem exec_prepare_ignored (ha : s.ctl.accepts ≠ true) : exec .prepare s = .next s.setIgn := if_neg ha

/-! ### Base ticks in a row -/

/-- `baseTicks` counted from its last tick. -/
theorem baseTicks_succ (n : Nat) (s : State) : baseTicks (n + 1) s = andThen (baseTicks n s) baseTick := by
  induction n generalizing s with
  | zero =>
    rw [baseTicks, baseTicks, andThen_next]
    cases baseTick s <;> rfl
  | succ n ih =>
    rw [baseTicks, baseTicks]
    cases baseTick s with
    | next t => exact ih t
    | fault e => rfl
    | refused e => rfl

theorem baseTicks_succ_next {n : Nat} {t : State} (h : baseTicks n s = .next t) : baseTicks (n + 1) s = baseTick t := by
  rw [baseTicks_succ, h, andThen_next]

/-! ### BUSY -/

theorem State.Inv.baseTick_busy (h : s.Inv) (hc : s.ctl = .busy) : baseTick s = .next s.countdown :=
  h.baseTick_stopped (by rw [hc]; rfl)

/-- The invariant does not tell the ticks of BUSY apart. -/
theorem State.Inv.setBusyLeft (h : s.Inv) {left : Nat} (hleft : 1 ≤ left) : ({ s with busyLeft := left } : State).Inv :=
  { h with busyCounts := fun _ => hleft }

/-- Before its last tick BUSY only counts down. -/
theorem State.Inv.baseTicks_busy (h : s.Inv) (hc : s.ctl = .busy) {n : Nat} (hn : n < s.busyLeft) :
    baseTicks n s = .next { s with busyLeft := s.busyLeft - n } := by
  induction n with
  | zero => rfl
  | succ n ih =>
    have hinv : ({ s with busyLeft := s.busyLeft - n } : State).Inv := h.setBusyLeft (by omega)
    have hwait : 2 ≤ s.busyLeft - n := by omega
    rw [baseTicks_succ_next (ih (Nat.lt_of_succ_lt hn)), hinv.baseTick_busy hc,
      countdown_wait (s := { s with busyLeft := s.busyLeft - n }) hc hwait]
    rfl

/-- The tick that takes busy_left to 0 ends BUSY (44_transmitter.md R239). -/
theorem State.Inv.baseTicks_busyLeft (h : s.Inv) (hc : s.ctl = .busy) :
    ∃ u, baseTicks s.busyLeft s = .next u ∧ (u.ctl = .ready ∨ u.ctl = .fault) ∧ u.busyLeft = 0 := by
  obtain ⟨m, hm⟩ := Nat.exists_eq_add_one.2 (h.busyCounts hc)
  have hone : s.busyLeft - m = 1 := by omega
  have hlast := h.baseTicks_busy hc (n := m) (by omega)
  rw [hone] at hlast
  refine ⟨completePrepare { s with busyLeft := 0 }, ?_, completePrepare_ends _⟩
  rw [hm, baseTicks_succ_next hlast, (h.setBusyLeft (Nat.le_refl 1)).baseTick_busy hc,
    countdown_last (s := { s with busyLeft := 1 }) hc rfl]

/-- Settles O10: acceptance is `acceptPrepare`, and its BUSY is counted down tick by tick. -/
theorem prepareAcceptance : Obligations.PrepareAcceptance := by
  unfold Obligations.PrepareAcceptance
  intro s
  rw [← Ctl.accepts_iff]
  refine ⟨fun w hop => hostWrite_cmd (decodeHcmd_prepare hop) s, fun h ha => ?_, fun ha => ?_, exec_prepare_ignored,
    fun h hc => ⟨h.baseTick_busy hc, countdown_wait hc⟩, fun h ha => ?_⟩
  · have hcause := h.noCause_of_accepts ha
    exact ⟨hcause, h.infoNeedsFault hcause⟩
  · exact ⟨s.latency, _, _, Nat.le_add_left 1 _, exec_prepare_accepted ha⟩
  · have hinv := h.acceptPrepare ha
    obtain ⟨u, hu, hends⟩ := hinv.baseTicks_busyLeft rfl
    exact ⟨s.acceptPrepare, u, exec_prepare_accepted ha, fun n => hinv.baseTicks_busy rfl, hu, hends⟩

end Sys2Proof.Machine
end

section
/-! PROOF. FEEDER and the settle delay (44_transmitter.md R231, R233): O32, O33. -/
namespace Sys2Proof.Machine
variable {s t u : State}

/-! ### FEEDER -/

theorem feed_pushes (hc : s.ctl = .streaming) (hroom : s.txq.length < s.params.txqDepth)
    (hj : s.j < s.params.tableCap) (hlen : 1 ≤ s.tableLen) :
    feed s = .next { s with txq := s.txq ++ [s.word.read s.j], j := (s.j + 1) % s.tableLen } := by
  rw [feed, if_pos ⟨hc, hroom⟩, memRead, if_pos hj]
  exact if_neg (Nat.ne_of_gt hlen)

theorem feed_skips (h : s.ctl ≠ .streaming ∨ s.params.txqDepth ≤ s.txq.length) : feed s = .next s :=
  if_neg fun ⟨hc, hroom⟩ => h.elim (· hc) (Nat.not_le_of_lt hroom)

/-- Settles O32: the two ways of a FEEDER step. -/
theorem feederStep : Obligations.FeederStep := by
  unfold Obligations.FeederStep
  exact fun s => ⟨feed_pushes, feed_skips⟩

/-! ### One tick of the settle delay -/

theorem State.SameControl.transmitter (h : s.SameControl t) :
    t.params = s.params ∧ t.settleCnt = s.settleCnt ∧ t.word = s.word ∧ t.tableLen = s.tableLen ∧ t.j = s.j := by
  rw [h.eq_update]
  exact ⟨rfl, rfl, rfl, rfl, rfl⟩

/-- A base tick from START on hands the settle step and FEEDER a state in which the sequencers' side alone has changed, and
words have been taken off the head of TXQ. -/
theorem State.Inv.baseTick_before_settle (h : s.Inv) (hs : s.ctl.started = true) (ht : baseTick s = .next t) :
    ∃ v, s.SameControl v ∧ v.txq <:+ s.txq ∧ feed v.settle = .next t := by
  obtain ⟨u, v, hu, hv, hf⟩ := baseTick_cases ht
  have hc : s.countdown = s := countdown_of_not_busy fun he => by rw [he] at hs; cases hs
  obtain ⟨huInv, -⟩ := h.afterSeqB hs hu
  obtain ⟨-, hqA⟩ := microStepIf_queue hv huInv.queueWhileStreaming
  obtain ⟨-, hqB⟩ := microStepIf_B_queue (h.tickFront hs).romsFixed.2 hu
  have hqFront : s.tickFront.txq = s.txq := by rw [tickFront_eq, hc]
  refine ⟨v, ?_, by rwa [hqB, hqFront] at hqA, hf⟩
  exact hc ▸ ((sameControl_tickFront s).trans (microStepIf_frame hu).control).trans (microStepIf_frame hv).control

/-- A tick of the settle delay before its last. -/
theorem State.Inv.baseTick_settling (h : s.Inv) (hc : s.ctl = .settling) (hcnt : s.settleCnt ≠ s.params.settleTicks)
    (ht : baseTick s = .next t) : t.ctl = .settling ∧ t.settleCnt = s.settleCnt + 1 ∧ t.j = s.j := by
  obtain ⟨v, hctl, -, hf⟩ := h.baseTick_before_settle (by rw [hc]; rfl) ht
  have hvc : v.ctl = .settling := hctl.ctl_eq.trans hc
  obtain ⟨hparams, hvcnt, -, -, hj⟩ := hctl.transmitter
  rcases settle_cases v with ⟨hne, -⟩ | ⟨-, hend, -⟩ | ⟨-, -, he⟩
  · exact absurd hvc hne
  · exact absurd (hvcnt ▸ hparams ▸ hend) hcnt
  · rw [he, feed_skips (.inl (by simp [hvc]))] at hf
    cases hf
    exact ⟨hvc, congrArg (· + 1) hvcnt, hj⟩

/-- The last tick of the settle delay enters STREAMING, and FEEDER finds the empty queue (R233). -/
theorem State.Inv.baseTick_settled (h : s.Inv) (hc : s.ctl = .settling) (hcnt : s.settleCnt = s.params.settleTicks)
    (ht : baseTick s = .next t) : t.ctl = .streaming ∧ t.txq = [s.word.read s.j] := by
  have hs : s.ctl.started = true := by rw [hc]; rfl
  obtain ⟨v, hctl, hq, hf⟩ := h.baseTick_before_settle hs ht
  have hempty : v.txq = [] := List.suffix_nil.1 (h.queueBeforeStreaming (by rw [hc]; nofun) ▸ hq)
  have hvc : v.ctl = .settling := hctl.ctl_eq.trans hc
  obtain ⟨hparams, hvcnt, hword, hlen, hj⟩ := hctl.transmitter
  obtain ⟨hdepth, -⟩ := h.paramsLegal
  obtain ⟨hsize, -⟩ := h.preparedSizes (Ctl.prepared_of_started hs)
  rcases settle_cases v with ⟨hne, -⟩ | ⟨-, -, he⟩ | ⟨-, hne, -⟩
  · exact absurd hvc hne
  · rw [he, feed_pushes (s := { v with ctl := .streaming }) rfl (by rw [hempty, hparams]; exact hdepth)
      (by rw [hj, hparams]; exact h.feederIndex) (hlen ▸ hsize)] at hf
    cases hf
    exact ⟨rfl, by simp only [hempty, hj, hword, List.nil_append]⟩
  · exact absurd (by rw [hvcnt, hparams, hcnt]) hne

/-- STREAMING goes on, whatever a base tick does. -/
theorem baseTick_streaming (hc : s.ctl = .streaming) (ht : baseTick s = .next t) : t.ctl = .streaming := by
  have hcount : s.countdown = s := countdown_of_not_busy (by rw [hc]; nofun)
  obtain ⟨-, hctl⟩ := baseTick_frame ht
  rw [hcount] at hctl
  exact hctl.elim (·.trans hc) And.right

/-- Outside BUSY no base tick writes the parameters or WORD. -/
theorem baseTick_params_word (hc : s.ctl ≠ .busy) (ht : baseTick s = .next t) : t.params = s.params ∧ t.word = s.word := by
  obtain ⟨hframe, -⟩ := baseTick_frame ht
  rw [countdown_of_not_busy hc] at hframe
  rw [hframe]
  exact ⟨rfl, rfl⟩

/-! ### Any number of ticks -/

/-- The transmitter `n` base ticks after a START accepted in `s` (R233). -/
structure SettledFor (s : State) (n : Nat) (u : State) : Prop where
  inv : u.Inv
  params : u.params = s.params
  word : u.word = s.word
  settling : n ≤ s.params.settleTicks → u.ctl = .settling ∧ u.settleCnt = n ∧ u.j = 0
  streaming : s.params.settleTicks < n → u.ctl = .streaming
  firstPush : n = s.params.settleTicks + 1 → u.txq = [s.word.read 0]

theorem settledFor_zero (h : s.Inv) (hc : s.ctl = .ready) : SettledFor s 0 s.jointStart where
  inv := h.jointStart hc
  params := rfl
  word := rfl
  settling := fun _ => ⟨rfl, rfl, rfl⟩
  streaming := nofun
  firstPush := nofun

theorem SettledFor.not_busy {n : Nat} (h : SettledFor s n u) : u.ctl ≠ .busy := by
  rcases Nat.lt_or_ge s.params.settleTicks n with hlt | hle
  · rw [h.streaming hlt]
    nofun
  · rw [(h.settling hle).1]
    nofun

/-- One more tick: of the settle delay, its last, or one of STREAMING. -/
theorem SettledFor.next {n : Nat} (h : SettledFor s n u) (ht : baseTick u = .next t) : SettledFor s (n + 1) t := by
  obtain ⟨hparams, hword⟩ := baseTick_params_word h.not_busy ht
  refine ⟨h.inv.baseTick_next ht, hparams.trans h.params, hword.trans h.word, fun hn => ?_, fun hn => ?_, fun hn => ?_⟩
  · obtain ⟨hc, hcnt, hj⟩ := h.settling (Nat.le_of_succ_le hn)
    obtain ⟨htc, htcnt, htj⟩ := h.inv.baseTick_settling hc (by rw [hcnt, h.params]; omega) ht
    exact ⟨htc, by rw [htcnt, hcnt], htj.trans hj⟩
  · rcases Nat.lt_or_eq_of_le (Nat.le_of_lt_succ hn) with hlt | heq
    · exact baseTick_streaming (h.streaming hlt) ht
    · obtain ⟨hc, hcnt, -⟩ := h.settling (Nat.le_of_eq heq.symm)
      exact (h.inv.baseTick_settled hc (by rw [hcnt, h.params, heq]) ht).1
  · have hlast : n = s.params.settleTicks := Nat.succ.inj hn
    obtain ⟨hc, hcnt, hj⟩ := h.settling (Nat.le_of_eq hlast)
    rw [(h.inv.baseTick_settled hc (by rw [hcnt, h.params, hlast]) ht).2, hj, h.word]

theorem baseTicks_settledFor (h : s.Inv) (hc : s.ctl = .ready) (n : Nat) :
    ∃ u, baseTicks n s.jointStart = .next u ∧ SettledFor s n u := by
  induction n with
  | zero => exact ⟨_, rfl, settledFor_zero h hc⟩
  | succ n ih =>
    obtain ⟨u, hu, hsettled⟩ := ih
    obtain ⟨t, ht⟩ := hsettled.inv.baseTick_answers
    exact ⟨t, (baseTicks_succ_next hu).trans ht, hsettled.next ht⟩

/-- Settles O33: base tick t0 + n is the (n + 1)-th after START, and `SettledFor` says where it ends. -/
theorem settleDelayLength : Obligations.SettleDelayLength := by
  unfold Obligations.SettleDelayLength
  intro s h hc n
  obtain ⟨u, hu, hsettled⟩ := baseTicks_settledFor h hc (n + 1)
  refine ⟨s.jointStart, u, exec_start_ready hc, hu, fun hn => ?_, fun hn => ?_, fun hn => ?_⟩
  · obtain ⟨huc, hcnt, -⟩ := hsettled.settling hn
    exact ⟨huc, hcnt, hsettled.inv.queueBeforeStreaming (by rw [huc]; nofun)⟩
  · exact hsettled.streaming (Nat.lt_succ_of_le hn)
  · exact hsettled.firstPush (congrArg Nat.succ hn)

end Sys2Proof.Machine
end

section
/-! PROOF. FAULT: how a step enters it (60_exceptions.md R260, R262), and what a step keeps in FAULT and from START on
(R265, R267): O39, O40, O42, O43. -/
namespace Sys2Proof.Machine
variable {s t : State}

/-! ### Entering FAULT -/

theorem offset_of_regAt {offset : Nat} {r : Reg} (h : regAt offset = some r) : offset = r.offset := by
  unfold regAt at h
  split at h <;> cases h <;> rfl

/-- A fault has been raised over `s`, with its cause, and nothing else (R262). -/
def FaultRaised (s t : State) : Prop := ∃ c info, c ≠ .none ∧ t = s.raiseFault c info

theorem writeCmd_enters_fault {w : Word} (hs : s.ctl ≠ .fault) (h : writeCmd w s = .next t) (ht : t.ctl = .fault) :
    FaultRaised s t := by
  rcases writeCmd_cases h with ⟨-, rfl⟩ | ⟨-, rfl⟩ | ⟨-, rfl⟩ | ⟨-, rfl⟩ | ⟨-, rfl⟩ | ⟨-, rfl⟩
  · exact absurd ht hs
  · cases ht
  · cases ht
  · exact ⟨.badSeq, _, nofun, rfl⟩
  · exact ⟨.badCmd, _, nofun, rfl⟩
  · exact absurd ht hs

/-- The only event but a clock edge that enters FAULT is a write to CMD, and it changes the fault fields alone. -/
theorem hostEvent_enters_fault {e : HostEvent} (he : e ≠ .edge) (hs : s.ctl ≠ .fault) (h : hostEvent e s = .next t)
    (ht : t.ctl = .fault) : (∃ w, e = .write 32 0x18 w) ∧ FaultRaised s t := by
  rcases hostEvent_effect he h with ⟨_, _, rfl⟩ | ⟨bits, offset, w, rfl, ha, hw⟩
  · exact absurd ht hs
  · rcases hostWrite_effect hw with ⟨_, _, rfl⟩ | ⟨hreg, hcmd⟩ | ⟨-, _, _, _, _, _, _, rfl⟩ | ⟨-, rfl⟩
    · exact absurd ht hs
    · obtain ⟨rfl, -⟩ := admitted_iff.1 ha
      obtain rfl : offset = 0x18 := offset_of_regAt hreg
      exact ⟨⟨w, rfl⟩, writeCmd_enters_fault hs hcmd ht⟩
    · cases ht
    · exact absurd ht hs

/-- The countdown enters FAULT only where it ends, and a PREPARE that faults has written the divisor registers and SAMPLE at
most (44_transmitter.md R239). -/
theorem countdown_enters_fault (hs : s.ctl ≠ .fault) (ht : s.countdown.ctl = .fault) :
    s.ctl = .busy ∧ s.busyLeft ≤ 1 ∧ ∃ (a b : BitVec 24) (v : Table),
      FaultRaised { s with busyLeft := 0, divA := a, divB := b, sample := v } s.countdown := by
  by_cases hc : s.ctl = .busy
  · rcases Nat.lt_or_ge 1 s.busyLeft with hwait | hlast
    · rw [countdown_wait hc hwait] at ht
      exact absurd ht hs
    · have hdone : s.countdown = completePrepare { s with busyLeft := 0 } := by
        simp [State.countdown, hc, Nat.sub_eq_zero_of_le hlast]
      rw [hdone] at ht ⊢
      refine ⟨hc, hlast, ?_⟩
      rcases completePrepare_cases { s with busyLeft := 0 } with
        ⟨_, _, _, _, _, _, _, _, -, -, -, -, -, -, -, he, -⟩ | ⟨a, b, v, c, info, hne, -, he⟩
      · rw [he] at ht
        cases ht
      · exact ⟨a, b, v, c, info, hne, he⟩
  · rw [countdown_of_not_busy hc] at ht
    exact absurd ht hs

/-- After the countdown a base tick does not enter FAULT. -/
theorem baseTick_enters_fault (h : baseTick s = .next t) (ht : t.ctl = .fault) : s.countdown.ctl = .fault := by
  obtain ⟨-, hctl⟩ := baseTick_frame h
  rcases hctl with hctl | ⟨-, hctl⟩
  · exact hctl.symm.trans ht
  · rw [ht] at hctl
    cases hctl

/-- A step that enters FAULT is a write to CMD, or a base tick. -/
theorem step_enters_fault (hs : s.ctl ≠ .fault) (h : step s = .next t) (ht : t.ctl = .fault) :
    (¬ s.edgeNext ∧ (∃ w rest, s.host = .write 32 0x18 w :: rest) ∧ FaultRaised { s with host := s.host.tail } t) ∨
    (s.edgeNext ∧ s.rst = false ∧ baseTick { s with host := s.host.tail } = .next t) := by
  rcases step_cases h with ⟨hedge, hc⟩ | ⟨e, rest, hhost, he, hedge, hx⟩
  · rcases clockEdge_cases hc with ⟨-, rfl⟩ | ⟨hrst, hb⟩
    · cases ht
    · exact .inr ⟨hedge, hrst, hb⟩
  · obtain ⟨⟨w, rfl⟩, hraised⟩ := hostEvent_enters_fault (s := { s with host := rest }) he hs hx ht
    exact .inl ⟨hedge, ⟨w, rest, hhost⟩, by rwa [hhost]⟩

/-- Settles O39: a command that faults raises its fault and no more, and before START a base tick is its countdown alone. -/
theorem faultEntry : Obligations.FaultEntry := by
  unfold Obligations.FaultEntry
  intro s t h hs hstep ht
  rcases step_enters_fault hs hstep ht with ⟨-, -, c, info, hne, rfl⟩ | ⟨hedge, -, hb⟩
  · exact ⟨hne, rfl, fun _ => ⟨rfl, rfl, rfl, rfl⟩⟩
  · obtain ⟨hbusy, -, a, b, v, c, info, hne, he⟩ :=
      countdown_enters_fault (s := { s with host := s.host.tail }) hs (baseTick_enters_fault hb ht)
    have hinv : ({ s with host := s.host.tail } : State).Inv :=
      h.setOutside s.host.tail s.rst s.readData s.tblIndex s.encIn
    rw [hinv.baseTick_busy hbusy, he] at hb
    cases hb
    exact ⟨hne, rfl, fun hnot => absurd hedge hnot⟩

/-- Settles O43: of the base ticks, only the one that ends BUSY enters FAULT. -/
theorem faultsComeOnlyFromCommandsAndPrepare : Obligations.FaultsComeOnlyFromCommandsAndPrepare := by
  unfold Obligations.FaultsComeOnlyFromCommandsAndPrepare
  intro s t hs hstep ht
  rcases step_enters_fault hs hstep ht with ⟨-, hcmd, -⟩ | ⟨hedge, hrst, hb⟩
  · exact .inl hcmd
  · obtain ⟨hbusy, hlast, -⟩ :=
      countdown_enters_fault (s := { s with host := s.host.tail }) hs (baseTick_enters_fault hb ht)
    exact .inr ⟨hedge, hrst, hbusy, hlast⟩

/-! ### Steps in FAULT and from START on -/

/-- What a step leaves standing in FAULT and from START on: STATE, but for the end of the settle delay, the fault, the divisors
and the run bits. -/
structure Standing (s t : State) : Prop where
  ctl : t.ctl = s.ctl ∨ s.ctl = .settling ∧ t.ctl = .streaming
  fault : t.cause = s.cause ∧ t.faultInfo = s.faultInfo
  divisors : t.divA = s.divA ∧ t.divB = s.divB
  runs : t.seqA.run = s.seqA.run ∧ t.seqB.run = s.seqB.run

/-- A write to CMD where no command is accepted only sets IGN (R265, R267). -/
theorem hostWrite_cmd_ignored (ha : s.ctl.accepts = false) (w : Word) :
    hostWrite 0x18 w s = .next { s with ign := true } :=
  (hostWrite_offset .cmd w s).trans (writeCmd_ignored ha w)

/-- Where no command is accepted, neither is a configuration write: the outside's events set IGN at most. -/
theorem hostEvent_ignored {e : HostEvent} (ha : s.ctl.accepts = false) (he : e ≠ .edge) (h : hostEvent e s = .next t) :
    ∃ rst data tblIndex encIn ign,
      t = { s with rst := rst, readData := data, tblIndex := tblIndex, encIn := encIn, ign := ign } := by
  rcases hostEvent_effect he h with ⟨_, _, rfl⟩ | ⟨_, _, w, -, -, hw⟩
  · exact ⟨_, _, _, _, _, rfl⟩
  · rcases hostWrite_effect hw with ⟨_, _, rfl⟩ | ⟨-, hcmd⟩ | ⟨hacc, -⟩ | ⟨-, rfl⟩
    · exact ⟨_, _, _, _, _, rfl⟩
    · rw [writeCmd_ignored ha] at hcmd
      cases hcmd
      exact ⟨_, _, _, _, _, rfl⟩
    · rw [ha] at hacc
      cases hacc
    · exact ⟨_, _, _, _, _, rfl⟩

theorem tickFront_runs (s : State) :
    s.tickFront.seqA.run = s.countdown.seqA.run ∧ s.tickFront.seqB.run = s.countdown.seqB.run := by
  rw [tickFront_eq]
  constructor
  · simp only
    split <;> rfl
  · simp only
    split <;> rfl

/-- No base tick starts or stops a sequencer (43_sequencers.md R206). -/
theorem baseTick_runs (h : baseTick s = .next t) :
    t.seqA.run = s.countdown.seqA.run ∧ t.seqB.run = s.countdown.seqB.run := by
  obtain ⟨u, v, hu, hv, hf⟩ := baseTick_cases h
  obtain ⟨hfrontA, hfrontB⟩ := tickFront_runs s
  obtain ⟨⟨huA, -⟩, huB, -⟩ := (microStepIf_frame hu).sequencers
  obtain ⟨⟨hvA, -⟩, hvB, -⟩ := (microStepIf_frame hv).sequencers
  obtain ⟨_, _, _, _, rfl, -⟩ := feed_settle_frame hf
  exact ⟨hvA.trans (huA.trans hfrontA), hvB.trans (huB.trans hfrontB)⟩

/-- Outside BUSY a base tick completes no PREPARE. -/
theorem baseTick_standing (hc : s.ctl ≠ .busy) (h : baseTick s = .next t) : Standing s t := by
  obtain ⟨hframe, hctl⟩ := baseTick_frame h
  have hruns := baseTick_runs h
  rw [countdown_of_not_busy hc] at hframe hctl hruns
  exact ⟨hctl, by rw [hframe]; exact ⟨rfl, rfl⟩, by rw [hframe]; exact ⟨rfl, rfl⟩, hruns⟩

/-- In FAULT and from START on, a step is the reset, or leaves what stands. -/
theorem step_standing (hc : s.ctl ≠ .busy) (ha : s.ctl.accepts = false) (h : step s = .next t) :
    s.resetNext ∨ Standing s t := by
  rcases step_cases h with ⟨hedge, hclk⟩ | ⟨e, rest, -, he, -, hx⟩
  · rcases clockEdge_cases hclk with ⟨hrst, -⟩ | ⟨-, hb⟩
    · exact .inl ⟨hrst, hedge⟩
    · obtain ⟨hctl, hfault, hdivs, hruns⟩ := baseTick_standing (s := { s with host := s.host.tail }) hc hb
      exact .inr ⟨hctl, hfault, hdivs, hruns⟩
  · obtain ⟨_, _, _, _, _, rfl⟩ := hostEvent_ignored (s := { s with host := rest }) ha he hx
    exact .inr ⟨.inl rfl, ⟨rfl, rfl⟩, ⟨rfl, rfl⟩, ⟨rfl, rfl⟩⟩

/-- Settles O40: FAULT is not BUSY, accepts no command, and has no settle delay to end. -/
theorem onlyResetLeavesFault : Obligations.OnlyResetLeavesFault := by
  unfold Obligations.OnlyResetLeavesFault
  refine ⟨fun s t hc hstep => ?_, fun s w hc => hostWrite_cmd_ignored (by rw [hc]; rfl) w⟩
  refine (step_standing (by rw [hc]; nofun) (by rw [hc]; rfl) hstep).imp_right fun hst => ⟨?_, hst.fault⟩
  rcases hst.ctl with hctl | ⟨hsettling, -⟩
  · exact hctl.trans hc
  · rw [hc] at hsettling
    cases hsettling

/-- Settles O42: SETTLING and STREAMING are not BUSY and accept no command, and SETTLING ends in STREAMING. -/
theorem noFaultWhileStarted : Obligations.NoFaultWhileStarted := by
  unfold Obligations.NoFaultWhileStarted
  have ignores {s : State} (hc : s.ctl = .settling ∨ s.ctl = .streaming) : s.ctl ≠ .busy ∧ s.ctl.accepts = false := by
    rcases hc with hc | hc <;> rw [hc] <;> exact ⟨nofun, rfl⟩
  refine ⟨fun s t hc hstep => ?_, fun s w hc => hostWrite_cmd_ignored (ignores hc).2 w⟩
  obtain ⟨hbusy, ha⟩ := ignores hc
  refine (step_standing hbusy ha hstep).imp_right fun ⟨hctl, ⟨hcause, hinfo⟩, ⟨hdivA, hdivB⟩, hruns⟩ =>
    ⟨?_, hcause, hinfo, hdivA, hdivB, hruns⟩
  rcases hctl with hctl | ⟨-, hctl⟩
  · rwa [hctl]
  · exact .inr hctl

end Sys2Proof.Machine
end

section
/-! PROOF. Clock edges that run nothing: under `rst` (70_reset_and_hazards.md R290, R291) and in FAULT (R302): O55, O41. -/
namespace Sys2Proof.Machine
variable {s : State}

/-! ### Reset -/

/-- The next step of an `edgeNext` state is a clock edge on the rest of the schedule, whatever the level of `rst`. -/
theorem step_clockEdge (hedge : s.edgeNext) : step s = clockEdge { s with host := s.host.tail } := by
  rcases hedge with hhost | hhead
  · have hsame : ({ s with host := s.host.tail } : State) = s := by
      rw [hhost, List.tail_nil, ← hhost]
    rw [hsame, step, hhost]
  · obtain ⟨rest, hhost⟩ : ∃ rest, s.host = .edge :: rest := List.head?_eq_some_iff.1 hhead
    rw [step_event hhost, hhost]
    rfl

theorem clockEdge_of_rst (hrst : s.rst = true) : clockEdge s = .next s.resetEdge := if_pos hrst

theorem hostAccess_in_reset {bits offset : Nat} {act : State → Result} (hrst : s.rst = true) :
    hostAccess bits offset act s = .refused .accessInReset := if_pos hrst

/-- Settles O55: the clock edge is `resetEdge`, and the port refuses an access before it looks at its form. -/
theorem resetFromAnyState : Obligations.ResetFromAnyState := by
  unfold Obligations.ResetFromAnyState
  refine fun s hrst => ⟨fun hedge => ?_, fun bits offset w rest hhost => ?_⟩
  · rw [step_clockEdge hedge, ← hrst]
    exact clockEdge_of_rst hrst
  · rcases hhost with hhost | hhost <;> rw [step_event hhost] <;> exact hostAccess_in_reset hrst

/-! ### FAULT -/

/-- Settles O41: before START a base tick is its countdown alone, and there is nothing to count down outside BUSY. -/
theorem faultIsQuiescent : Obligations.FaultIsQuiescent := by
  unfold Obligations.FaultIsQuiescent
  intro s hinv hfault
  have hstopped : s.ctl.started = false := by rw [hfault]; rfl
  have hidle : s.ctl ≠ .busy := by rw [hfault]; nofun
  rw [hinv.baseTick_stopped hstopped, countdown_of_not_busy hidle]

end Sys2Proof.Machine
end
